-- ==== Sys2Proof/Word.lean ====
section
/-! DEFINITION. The words the LG2460 handles as bits, and the numbers of its lanes, lifts and products (section 0.7). -/
namespace Sys2Proof

/-- One byte of a trunk frame or a lane frame. -/
abbrev Byte := BitVec 8

/-- Pass identifier: a 64-bit value read from the pass (section 0.7). UID 0 is not a valid pass. -/
abbrev Uid := BitVec 64

/-- A reading of the millisecond timebase, 0 to 4,294,967,295, which wraps (section 0.7). -/
abbrev Reading := BitVec 32

/-- The tag of a trunk frame, 0 to 65,535 (section 10.1). -/
abbrev Tag := BitVec 16

/-- The number of a place request, which wraps from 65,535 to 0 (section 4.4.2). -/
abbrev RequestNo := BitVec 16

/-- Lanes are numbered 0 to 11 (section 0.7). -/
abbrev LaneNo := Fin 12

/-- Lifts are numbered 0 to 3 inside the part (section 0.7). -/
abbrev LiftNo := Fin 4

/-- Product codes are 0 to 255 (section 0.7). -/
abbrev ProductCode := Fin 256

/-- The generation of a pass row or a stream, 0 to 255 (R3, R175). -/
abbrev Generation := Fin 256

end Sys2Proof
end

