-- ==== Sys2Proof/Syntax.lean ====
section
/-! DEFINITION. The commands of the LG2460: one constructor for each row of spec/opcode_table.json, in the table's order.
A command is one step of the part, whole and indivisible: an arrival at one of its lines or links, or the taking by one block
of what stands waiting for it (a routed request, a handed message, an expired timer, a granted row operation). A command names
what the part itself does not decide (which lane, which lift, which level, which bytes); what is taken stands in `State`. -/
namespace Sys2Proof

/-- Who takes the CONFIG: the trunk port first, then each owner its own settings (R193). -/
inductive ConfigOwner where
  /-- The trunk port takes the request and hands each setting to its owner. -/
  | trunkPort
  /-- A lane takes the passage window and the hold timeout (R106). -/
  | lane (lane : LaneNo)
  /-- The refund unit takes the minimum payout (R143). -/
  | refundUnit
  /-- The calendar takes the closure threshold (R36). -/
  | calendar
  /-- The journal takes the two water marks (R138). -/
  | journal
  deriving DecidableEq, Repr

/-- Who hands the ride journal a passage-kind record (R126). -/
inductive RecordOwner where
  | passTable
  | lane (lane : LaneNo)
  deriving DecidableEq, Repr

/-- Who hands the trunk port a raise of a notice condition (R194). -/
inductive RaiseSource where
  | lane (lane : LaneNo)
  | journal
  | passTable
  | streamUnit
  | trunkPort
  deriving DecidableEq, Repr

/-- The commands, in the order of spec/opcode_table.json. -/
inductive Instr where
  | powerOnReset
  | memoryClearDone
  | stationReset
  | cabinetResetLine
  | laneStationReset (lane : LaneNo)
  | liftStationReset (lift : LiftNo)
  /-- A frame delivered by the line interface: the bytes of the Ethernet data field, padding included. -/
  | trunkFrameReceive (frame : List Byte)
  | requestRoute
  | transmitFrame
  /-- The trunk port takes the oldest raise of one source. -/
  | noticeRaise (source : RaiseSource)
  | passPut
  | passSetStatus
  | passDelete
  | passRead
  | usageMerge
  | productPut
  | productClear
  | productRead
  | protectSet
  | serviceKeyLineChange (asserted : Bool)
  | serviceKeyDebounceExpiry
  | dayOpen
  | dayClose
  | time
  | calendarPut
  | calendarRead
  | countAdvance
  | laneDayOpen (lane : LaneNo)
  | laneDayClose (lane : LaneNo)
  | journalDayOpen
  | protectionDayOpen
  | laneRelease (lane : LaneNo)
  | laneLock (lane : LaneNo)
  | laneFaultClear (lane : LaneNo)
  | laneConfig (lane : LaneNo)
  | laneRead (lane : LaneNo)
  | presentLineChange (lane : LaneNo) (present : Bool)
  | presenceDebounceExpiry (lane : LaneNo)
  | latchSenseChange (lane : LaneNo) (released : Bool)
  | driveWindowExpiry (lane : LaneNo)
  | releaseWatchExpiry (lane : LaneNo)
  /-- A lane frame whose bytes are those of a TAP. -/
  | tap (lane : LaneNo) (frame : List Byte)
  /-- A lane frame whose bytes are those of a KEY. -/
  | key (lane : LaneNo) (frame : List Byte)
  /-- A lane frame that fails the checks of R49. -/
  | laneFrameDrop (lane : LaneNo) (frame : List Byte)
  | waitingTapTake (lane : LaneNo)
  | validation (lane : LaneNo)
  /-- `receiving`: whether a frame is being received on the half-duplex line at this moment. -/
  | showSend (lane : LaneNo) (receiving : Bool)
  /-- The ROTATION line takes the level `active`; a rotation is taken when R45 says so. -/
  | rotation (lane : LaneNo) (active : Bool)
  | passageCommit (lane : LaneNo)
  | headRecord (lane : LaneNo)
  | closingRowOperation (lane : LaneNo)
  | passageWindowExpiry (lane : LaneNo)
  | holdTimeoutExpiry (lane : LaneNo)
  | passStatusCancellation (lane : LaneNo)
  | placeRequest (lane : LaneNo) (lift : LiftNo)
  | place (lane : LaneNo) (lift : LiftNo)
  | hold (lane : LaneNo) (lift : LiftNo)
  | refusal (lane : LaneNo) (lift : LiftNo)
  | liftPassage (lane : LaneNo) (lift : LiftNo)
  | release (lane : LaneNo) (lift : LiftNo)
  | leave (lane : LaneNo) (lift : LiftNo)
  | liftFreePassage (lane : LaneNo) (lift : LiftNo)
  | liftIntrusion (lane : LaneNo) (lift : LiftNo)
  /-- The CARR line takes the level `active`; a pulse is taken when R72 says so. -/
  | carrierPulse (lift : LiftNo) (active : Bool)
  /-- The state lines LSA and LSB take the levels given. -/
  | liftLineChange (lift : LiftNo) (lsa lsb : Bool)
  | liftDebounceExpiry (lift : LiftNo)
  | liftConfig (lift : LiftNo)
  | liftRead (lift : LiftNo)
  | inOperationChange (lane : LaneNo) (lift : LiftNo)
  | passageRecordTake (owner : RecordOwner)
  | journalAck
  | journalReplay
  | journalRead
  | refundQuote
  | refundRetire
  | streamOpen
  | streamData
  | streamChunkRow
  | streamSuspend
  | streamResume
  | streamClose
  | streamAbort
  | streamIdleExpiry
  | sweepStep
  | status
  | restart
  | config (owner : ConfigOwner)
  | noticeMask
  | noticeAck
  | resetLineChange (asserted : Bool)
  | showSent (lane : LaneNo)
  deriving DecidableEq, Repr

end Sys2Proof
end

