-- ==== Sys2Proof/Decode.lean ====
section
/-! DEFINITION. The words of the command table: no row of spec/opcode_table.json gives bits, since the part takes arrivals and not instruction words,
so no word spells a command. -/
namespace Sys2Proof

/-- The command a word spells by the table's bits; the table gives none to any row. -/
def decodeTableWord (_nbits _w : Nat) : Option Instr := none

end Sys2Proof
end

