-- ==== Sys2Proof/Machine/State.lean ====
section
/-! DEFINITION. The state of the LG2460, block by block as section 0.3 lists them, as plain data, with its value after power-on
reset; and the reasons a step can stop. What one block has handed to another and the other has not yet taken stands in State too,
at the block that hands it, oldest first. -/
namespace Sys2Proof.Machine

/-! ### Passes and products (chapter 1) -/

/-- The status of a pass row (R3). Only an ACTIVE row can be granted at a gate. -/
inductive PassStatus where
  | active | blocked | retired
  deriving DecidableEq, Repr

/-- The kind of a product (R16). -/
inductive ProductKind where
  | multiDay | season
  deriving DecidableEq, Repr

/-- The last local passage of a pass (R3). -/
structure LastPassage where
  lift : LiftNo
  day : Nat
  second : Nat
  deriving DecidableEq, Repr

/-- The refund field of a pass row (R3, R160), in cents and a day number. -/
structure Refund where
  paidPerHead : Nat
  balancePerHead : Nat
  retireDay : Nat
  deriving DecidableEq, Repr

/-- A pass row (R3). -/
structure PassRow where
  uid : Uid
  product : ProductCode
  status : PassStatus
  headcount : Nat
  pricePerHead : Nat
  expiryDay : Option Nat
  consumed : List Nat
  seasonDays : Nat
  lastCountedDay : Option Nat
  lastPassage : Option LastPassage
  pendingLane : Option LaneNo
  refund : Option Refund
  generation : Generation
  deriving DecidableEq, Repr

/-- A product record (R16). -/
structure Product where
  isDefined : Bool
  kind : ProductKind
  dayCount : Nat
  validFrom : Nat
  validTo : Nat
  liftMask : BitVec 64
  rerideInterval : Nat
  groupAllowed : Bool
  refundable : Bool
  refundGrace : Nat
  peakRate : Nat
  regularRate : Nat
  lowRate : Nat
  refundFee : Nat
  rowCount : Nat
  deriving DecidableEq, Repr

/-- The protection mode (R22). -/
inductive ProtectionMode where
  | unprotected | keyed | locked
  deriving DecidableEq, Repr

/-- The sense of the protection window (R22). -/
inductive WindowSense where
  | inside | outside
  deriving DecidableEq, Repr

/-- Product protection: a mode and a window (R22). -/
structure Protection where
  mode : ProtectionMode
  low : Nat
  high : Nat
  sense : WindowSense
  deriving DecidableEq, Repr

/-- A line read through a debounce (R23, R46, R70): the level of the line, the level taken from it, and, while the line has left that
level, the milliseconds it must still hold without a break. -/
structure Debounce (α : Type) where
  line : α
  debounced : α
  remaining : Option Nat
  deriving DecidableEq, Repr

/-- A line on which activity after 20 ms of inactivity counts (R45, R72): its level, and the milliseconds for which it has been
inactive, counted no further than 20. -/
structure PulseLine where
  active : Bool
  inactiveMs : Nat
  deriving DecidableEq, Repr

/-! ### Season calendar and day clock (chapter 2) -/

/-- The class of a day (R27). -/
inductive DayClass where
  | peak | regular | low
  deriving DecidableEq, Repr

/-- The source of a day's credit percent (R27). -/
inductive CreditSource where
  | computed | frozen | set
  deriving DecidableEq, Repr

/-- The state of a day record (R27). -/
inductive DayState where
  | ahead | opened | closed
  deriving DecidableEq, Repr

/-- A day record (R27). -/
structure DayRecord where
  dayClass : DayClass
  operatingMinutes : Nat
  closedLiftMinutes : Nat
  creditPercent : Nat
  source : CreditSource
  state : DayState
  deriving DecidableEq, Repr

/-- A change of day state that the calendar hands a lane (R32, R34). -/
inductive DayChange where
  | opened | closed
  deriving DecidableEq, Repr

/-- The calendar and day clock, with the effects it has handed and their owners have not yet taken (R32). -/
structure Calendar where
  days : Vector DayRecord 240
  currentDay : Option Nat
  secondOfDay : Nat
  /-- The sub-second phase of the crystal count (R30). -/
  subSecondPhase : Nat
  closureThreshold : Nat
  /-- Changes of day state handed to each lane and not yet taken, oldest first. -/
  toLanes : Vector (List DayChange) 12
  /-- DAY_OPEN effects handed to the ride journal and not yet taken. -/
  toJournal : Nat
  /-- DAY_OPEN effects handed to the product table and not yet taken. -/
  toProductTable : Nat
  deriving DecidableEq, Repr

/-! ### Notices (sections 10.5 and 10.7) -/

/-- The notice conditions, in the order of their codes (R194). -/
inductive Condition where
  | tablesLost | restarted | laneFault | laneDetached | journalHigh | journalOverflow | rxOverflow | overconsumed
  | streamDone | streamTimeout
  deriving DecidableEq, Repr

/-- The reply codes, in the order of their values (section 10.6). -/
inductive ReplyCode where
  | ok | okNoChange | okClamped | unknownKind | starting | wrongState | range | badField | unknown | noProduct | bucketFull
  | isProtected | keyRequired | productInUse | dDecrease | kindChange | passBusy | retiredLocal | overconsumed | futureDay
  | dayOrder | noDay | blocked | alreadyRetired | notRefundable | expired | nothingUnused | belowMinimum | journalFull
  | badSequence | streamBusy | noStream | outOfOrder | suspended | stillPresent
  deriving DecidableEq, Repr

/-- The first refused row of a stream (R175). -/
structure FirstRefused where
  chunk : Nat
  position : Nat
  reason : ReplyCode
  deriving DecidableEq, Repr

/-- The stored detail of a notice condition, as the table of R194 gives it. -/
inductive NoticeDetail where
  | empty
  | lane (lane : LaneNo)
  | heldCount (held : Nat)
  /-- The lift, or the station when absent, and the overflow counter's new value. -/
  | overflow (lift : Option LiftNo) (value : Nat)
  | receiveOverflow (value : Nat)
  | merge (uid : Uid) (day : Nat)
  | streamDone (generation : Generation) (applied refused : Nat) (first : Option FirstRefused)
      (deleted keptBusy keptRefunded : Nat)
  | streamTimeout (generation : Generation) (expected applied refused : Nat)
  deriving DecidableEq, Repr

/-- A raise of a notice condition, handed to the trunk port (R194). -/
structure Raise where
  condition : Condition
  detail : NoticeDetail
  deriving DecidableEq, Repr

/-! ### Gate lanes, taps, admissions (chapters 3, 5 and 6) -/

/-- The attendant key (R51). -/
inductive KeyPosition where
  | normal | free | shut
  deriving DecidableEq, Repr

/-- The configured mode of a lane (R52). -/
inductive ConfiguredMode where
  | locked | released
  deriving DecidableEq, Repr

/-- The effective states of a lane, in the order of R44. -/
inductive EffectiveState where
  | detached | faulted | overrideFree | overrideShut | locked | dayClosed | noLift | inService
  deriving DecidableEq, Repr

/-- The 15 deny reasons, in the order of R64. -/
inductive DenyReason where
  | laneLocked | laneShut | laneFault | dayClosed | noLift | laneBusy | unknownPass | blocked | retired | noProduct
  | notValidToday | wrongLift | passInUse | tooSoon | noDaysLeft
  deriving DecidableEq, Repr

/-- The signals of a SHOW (R50), in the order of R198. -/
inductive Signal where
  | green | amber | red | seeOffice | dark
  deriving DecidableEq, Repr

/-- The reason codes of a SHOW (R50, R198). -/
inductive ShowReason where
  | state (state : EffectiveState)
  | denied (reason : DenyReason)
  | complete | balked | partlyPassed | holdExpired
  | liftChanged | liftClosed | passStatus
  deriving DecidableEq, Repr

/-- A SHOW frame's contents (R50). -/
structure Show where
  signal : Signal
  reason : ShowReason
  heads : Nat
  deriving DecidableEq, Repr

/-- The lane counters (R64); `denials` holds one counter for each deny reason, in the order of R64. -/
structure LaneCounters where
  taps : Nat
  grants : Nat
  denials : Vector Nat 15
  balks : Nat
  partials : Nat
  holdExpiries : Nat
  intrusions : Nat
  freePassages : Nat
  deriving DecidableEq, Repr

/-- A deadline on the millisecond timebase: the reading it was set from and its duration in ms; it stands for their sum (R117). -/
structure Deadline where
  setAt : Reading
  duration : Nat
  deriving DecidableEq, Repr

/-- The phase of an admission; an absent phase waits for the lift's answer (R105). -/
inductive Phase where
  | hold | unlocked
  deriving DecidableEq, Repr

/-- An admission (R105). -/
structure Admission where
  slot : Nat
  uid : Uid
  lane : LaneNo
  lift : LiftNo
  phase : Option Phase
  headsTotal : Nat
  headsPassed : Nat
  request : RequestNo
  deadline : Option Deadline
  holdStart : Option Reading
  deriving DecidableEq, Repr

/-- The stamp of a passage: the current day and second of day read in the rotation event (R111, R123, R124). -/
structure Stamp where
  day : Option Nat
  second : Nat
  deriving DecidableEq, Repr

/-- An operation of a lane's row-operation list (R114). -/
inductive RowOp where
  | validate (uid : Uid)
  | passage (slot : Nat) (uid : Uid) (head : Nat) (lift : LiftNo) (stamp : Stamp)
  | closing (slot : Nat) (uid : Uid)
  deriving DecidableEq, Repr

/-- What a lane hands a lift (R79, R82, R123, R124). -/
inductive LaneMessage where
  | placeRequest (request : RequestNo)
  | passage (request : RequestNo)
  | release (request : RequestNo)
  | leave (request : RequestNo)
  | freePassage
  | intrusion
  deriving DecidableEq, Repr

/-- A lift's answer to a place request (R79). -/
inductive LiftAnswer where
  | place (request : RequestNo)
  | hold (request : RequestNo)
  | refusal (request : RequestNo)
  deriving DecidableEq, Repr

/-- The kinds of a journal record, in the order of R127. -/
inductive RecordKind where
  | passage | free | intrusion | refund | adjustment
  deriving DecidableEq, Repr

/-- The fields of a journal record that its owner hands (R127). -/
structure RecordBody where
  kind : RecordKind
  second : Nat
  day : Option Nat
  lane : Option LaneNo
  lift : Option LiftNo
  uid : Option Uid
  headIndex : Option Nat
  newDay : Option Bool
  amountPerHead : Option Nat
  headcount : Option Nat
  unusedDays : Option Nat
  deriving DecidableEq, Repr

/-- A lane controller and its lane context (R44), its tap handling state (section 5.1.1), its row-operation list (R114), its settings as
it has taken them (R106), and what it has handed to others and they have not yet taken. -/
structure Lane where
  /-- The PRESENT line and the presence, `true` for PRESENT (R46). -/
  presence : Debounce Bool
  keyPosition : KeyPosition
  configuredMode : ConfiguredMode
  actuationFail : Bool
  stuckOpen : Bool
  primaryLift : LiftNo
  secondaryLift : Option LiftNo
  /-- The in-operation of each lift as the lane last took it (R73). -/
  liftInOperation : Vector Bool 4
  servedLift : Option LiftNo
  /-- Whether the day is OPEN as the lane has taken it by its own DAY_OPEN and DAY_CLOSE events (R53). -/
  dayOpen : Bool
  effective : EffectiveState
  admission : Option Admission
  /-- The UNLOCK line: `true` while driven (R56). -/
  unlock : Bool
  /-- The LATCH_SENSE line: `true` while it shows released (R45). -/
  latchReleased : Bool
  rotationLine : PulseLine
  /-- Milliseconds left of the drive window, when it runs (R57). -/
  driveWindow : Option Nat
  /-- Milliseconds left of the release watch, when it runs (R58). -/
  releaseWatch : Option Nat
  counters : LaneCounters
  linkErrors : Nat
  /-- The transmit slot of the lane link (R50). -/
  showSlot : Option Show
  /-- The bytes of the SHOW frame being sent on the lane link (R50, R198). -/
  sending : Option (List Byte)
  lastShown : Option Show
  validationInFlight : Bool
  waitingTap : Option Uid
  /-- Taps emptied from the waiting slot and not yet taken (R88), oldest first. -/
  emptiedTaps : List Uid
  lastRequest : RequestNo
  /-- The passage window in seconds, as this lane has taken it (R106). -/
  passageWindow : Nat
  /-- The hold timeout in seconds, as this lane has taken it (R106). -/
  holdTimeout : Nat
  rowOps : List RowOp
  /-- Handed to each lift and not yet taken, oldest first. -/
  toLifts : Vector (List LaneMessage) 4
  /-- FREE and INTRUSION records handed to the journal and not yet taken, oldest first (R126). -/
  records : List RecordBody
  /-- Raises handed to the trunk port and not yet taken, oldest first. -/
  raises : List Raise
  /-- Station resets that have started and that this lane has not yet taken (R66). -/
  resetsPending : Nat
  deriving DecidableEq, Repr

/-! ### Lifts (chapter 4) -/

/-- The states of a lift and of its lines, in the order of R70. -/
inductive LiftState where
  | closedSchedule | running | stopped | closedWeather
  deriving DecidableEq, Repr

/-- An entry of the reservation list (R78). -/
structure Reservation where
  lane : LaneNo
  request : RequestNo
  deriving DecidableEq, Repr

/-- An entry of the hold queue (R80). -/
structure HoldEntry where
  lane : LaneNo
  request : RequestNo
  holdStart : Reading
  deriving DecidableEq, Repr

/-- A lift monitor (chapter 4), with what it has handed to the lanes and they have not yet taken. -/
structure Lift where
  enabled : Bool
  resortLift : Nat
  seatsPerCarrier : Nat
  corralLimit : Nat
  /-- The line state decoded from LSA and LSB, and its debounce (R70). -/
  lineState : Debounce LiftState
  carrierLine : PulseLine
  occupancy : Nat
  reservations : List Reservation
  holdQueue : List HoldEntry
  /-- Places, holds and refusals handed to each lane and not yet taken, oldest first. -/
  answers : Vector (List LiftAnswer) 12
  /-- Changes of in-operation handed to each lane and not yet taken, oldest first. -/
  changes : Vector (List Bool) 12
  /-- Station resets that have started and that this lift has not yet taken (R87). -/
  resetsPending : Nat
  deriving DecidableEq, Repr

/-! ### Ride journal (chapter 7) -/

/-- A record in the ring (R127): what its owner handed, with the sequence and the resort lift number the journal fills in. -/
structure JournalRecord where
  sequence : Nat
  resortLift : Option Nat
  body : RecordBody
  deriving DecidableEq, Repr

/-- The ride journal. -/
structure Journal where
  /-- The ring, oldest record first (R128). -/
  ring : List JournalRecord
  nextSequence : Nat
  sendPosition : Option Nat
  replayCursor : Option Nat
  bins : Vector (Vector Nat 24) 4
  liftOverflow : Vector Nat 4
  stationOverflow : Nat
  lowMark : Nat
  highMark : Nat
  /-- The high state: `true` for ABOVE (R139). -/
  above : Bool
  raises : List Raise
  deriving DecidableEq, Repr

/-! ### Pass table and its port (chapter 1) -/

/-- The pass table: its occupied slots in rising order of slot number (an unlisted slot is free), the used-slot count, and what its
row operations have handed on (R5, R12). -/
structure PassTable where
  slots : List (Nat × PassRow)
  usedSlots : Nat
  /-- PASS_STATUS cancellations handed to each lane and not yet taken, oldest first (R12). -/
  cancellations : Vector (List Uid) 12
  /-- PASSAGE records handed to the journal and not yet taken, oldest first (R126). -/
  records : List RecordBody
  raises : List Raise
  deriving DecidableEq, Repr

/-- The two groups between which grants alternate (R6). -/
inductive PortGroup where
  | lanes | trunkAndStream
  deriving DecidableEq, Repr

/-- The two requesters of the trunk-and-stream group (R6). -/
inductive TrunkRequester where
  | trunkOwners | streamUnit
  deriving DecidableEq, Repr

/-- The table port arbiter (R6). -/
structure Arbiter where
  pointer : LaneNo
  lastGroup : PortGroup
  lastTrunkRequester : TrunkRequester
  deriving DecidableEq, Repr

/-! ### Streams (chapter 9) -/

/-- The states of the stream context (R175). -/
inductive StreamState where
  | idle | opened | suspended | sweeping
  deriving DecidableEq, Repr

/-- A chunk being applied (R176, R178): the reply place of its STREAM_DATA, its rows still to be presented as they stand in the body, the
position of the next row, and the rows refused so far. -/
structure Chunk where
  place : Option Nat
  number : Nat
  rows : List (List Byte)
  position : Nat
  refusedRows : List (Nat × ReplyCode)
  deriving DecidableEq, Repr

/-- The stream unit (R175). -/
structure Stream where
  state : StreamState
  generation : Generation
  sweepFlag : Bool
  expectedChunk : Nat
  rowsApplied : Nat
  rowsRefused : Nat
  firstRefused : Option FirstRefused
  sweepCursor : Nat
  sweepDeleted : Nat
  sweepKeptBusy : Nat
  sweepKeptRefunded : Nat
  idleDeadline : Option Deadline
  chunk : Option Chunk
  raises : List Raise
  deriving DecidableEq, Repr

/-! ### Trunk port (chapter 10) -/

/-- The request kinds of section 10.7, in the order of its table. -/
inductive RequestKind where
  | passPut | passSetStatus | passDelete | passRead | usageMerge
  | productPut | productClear | productRead | protectSet
  | dayOpen | dayClose | time | calendarPut | calendarRead
  | laneRelease | laneLock | laneFaultClear | laneConfig | laneRead
  | liftConfig | liftRead
  | journalAck | journalReplay | journalRead
  | refundRequest
  | streamOpen | streamData | streamSuspend | streamResume | streamClose | streamAbort
  | status | restart | config | noticeMask | noticeAck
  deriving DecidableEq, Repr

/-- The owners to which the trunk port routes requests (R188). -/
inductive Owner where
  | passTable | productTable | calendar
  | lane (lane : LaneNo)
  | lift (lift : LiftNo)
  | journal | refundUnit | streamUnit | trunkPort
  deriving DecidableEq, Repr

/-- A frame in the receive queue (R188). -/
structure RxFrame where
  kind : Byte
  tag : Tag
  body : List Byte
  deriving DecidableEq, Repr

/-- A request handed to its owner and not yet taken (R188). `place` is the reply place that waits for its reply; absent only for a
setting whose CONFIG lost its place to a station reset. -/
structure Routed where
  owner : Owner
  kind : RequestKind
  body : List Byte
  place : Option Nat
  deriving DecidableEq, Repr

/-- The six global settings as the CONFIG reply carries them (R193). -/
structure Settings where
  passageWindow : Nat
  holdTimeout : Nat
  minimumPayout : Nat
  closureThreshold : Nat
  lowMark : Nat
  highMark : Nat
  deriving DecidableEq, Repr

/-- A reserved reply place: the request it waits for, and what the owners of a request that goes to several have answered so far:
how many are awaited, whether one changed, whether one holds its cause still or clamped, and the values stored. -/
structure ReservedPlace where
  number : Nat
  kind : RequestKind
  tag : Tag
  awaiting : Nat
  changed : Bool
  flagged : Bool
  stored : Settings
  deriving DecidableEq, Repr

/-- A filled reply place: the reply frame's kind, tag and body. -/
structure Reply where
  kind : Byte
  tag : Tag
  body : List Byte
  deriving DecidableEq, Repr

/-- A notice condition's latch, mask and stored detail (R194). -/
structure NoticeCondition where
  latched : Bool
  masked : Bool
  detail : NoticeDetail
  deriving DecidableEq, Repr

/-- What the frame in the transmitter still occupies until it has been sent (R188, R189). -/
inductive Occupied where
  | replyPlace
  | notice (condition : Condition)
  | nothing
  deriving DecidableEq, Repr

/-- The frame in the transmitter. -/
structure Sending where
  frame : List Byte
  occupies : Occupied
  deriving DecidableEq, Repr

/-- Part status (R190). -/
inductive PartStatus where
  | starting | ready
  deriving DecidableEq, Repr

/-- The trunk port. -/
structure TrunkPort where
  partStatus : PartStatus
  rxQueue : List RxFrame
  reserved : List ReservedPlace
  /-- Filled reply places, in the order they were filled. -/
  filled : List Reply
  malformed : Nat
  rxOverflow : Nat
  conditions : Vector NoticeCondition 10
  /-- The pending notice list, oldest first. -/
  pendingNotices : List Raise
  transmitter : Option Sending
  raises : List Raise
  /-- Station resets asked for and not yet started, oldest first: the tag of the RESTART, or absent for the cabinet line (R192). -/
  restarts : List (Option Tag)
  deriving DecidableEq, Repr

/-- The cabinet reset line (R192): its level, the milliseconds it must still hold that level for the measure of 10 ms to be complete,
and whether it has been released for 10 ms since the last reset it started. -/
structure ResetLine where
  asserted : Bool
  remaining : Nat
  armed : Bool
  deriving DecidableEq, Repr

/-- The state of the part. The last two fields are the model's own: `freeIndex` counts the free values drawn (log entry 3), and
`pending` is the queue of commands that wait, first in, first out. -/
structure State where
  trunk : TrunkPort
  routed : List Routed
  table : PassTable
  arbiter : Arbiter
  products : Vector Product 256
  protection : Protection
  serviceKey : Debounce Bool
  calendar : Calendar
  lanes : Vector Lane 12
  lifts : Vector Lift 4
  journal : Journal
  minimumPayout : Nat
  stream : Stream
  timebase : Reading
  resetLine : ResetLine
  freeIndex : Nat
  pending : List Instr
  deriving DecidableEq, Repr

/-- The reasons a step can stop with a fault. There is none: every command of this part has an effect in every state, and a command
whose arrival does not stand leaves the state as it is (log entry 1). No constructor, so no step faults. -/
inductive Fault where
  deriving DecidableEq, Repr

/-- The reasons a step can be refused. -/
inductive Refusal where
  /-- Raised by `exec` for a command that has no meaning yet, with its mnemonic; safe, since the machine stops. No arm raises it. -/
  | notModelled (mnemonic : String)
  deriving DecidableEq, Repr

/-! ### Power-on values -/

/-- A line debounced from `level`, whose debounced level is `start` until the line has held another for `ms`. -/
def Debounce.powerOn {α : Type} [DecidableEq α] (start level : α) (ms : Nat) : Debounce α :=
  { line := level, debounced := start, remaining := if level = start then none else some ms }

/-- The undefined product record (R16). -/
def Product.undefinedRecord : Product :=
  { isDefined := false, kind := .multiDay, dayCount := 1, validFrom := 0, validTo := 239, liftMask := 0, rerideInterval := 0,
    groupAllowed := false, refundable := false, refundGrace := 0, peakRate := 0, regularRate := 0, lowRate := 0,
    refundFee := 0, rowCount := 0 }

/-- The day record after power-on (R27). -/
def DayRecord.powerOn : DayRecord :=
  { dayClass := .regular, operatingMinutes := 480, closedLiftMinutes := 0, creditPercent := 0, source := .computed,
    state := .ahead }

/-- The calendar after power-on (R42). -/
def Calendar.powerOn : Calendar :=
  { days := Vector.replicate 240 DayRecord.powerOn, currentDay := none, secondOfDay := 0, subSecondPhase := 0,
    closureThreshold := 60, toLanes := Vector.replicate 12 [], toJournal := 0, toProductTable := 0 }

/-- Lane counters all 0 (R64). -/
def LaneCounters.zero : LaneCounters :=
  { taps := 0, grants := 0, denials := Vector.replicate 15 0, balks := 0, partials := 0, holdExpiries := 0, intrusions := 0,
    freePassages := 0 }

/-- A lane after power-on (R67, R104, R125), with the levels its lines then have. -/
def Lane.powerOn (present latchReleased rotationActive : Bool) : Lane :=
  { presence := Debounce.powerOn false present 500, keyPosition := .normal, configuredMode := .locked,
    actuationFail := false, stuckOpen := false, primaryLift := 0, secondaryLift := none,
    liftInOperation := Vector.replicate 4 false, servedLift := none, dayOpen := false, effective := .detached,
    admission := none, unlock := false, latchReleased := latchReleased,
    rotationLine := { active := rotationActive, inactiveMs := 0 }, driveWindow := none, releaseWatch := none,
    counters := LaneCounters.zero, linkErrors := 0, showSlot := none, sending := none, lastShown := none,
    validationInFlight := false, waitingTap := none, emptiedTaps := [], lastRequest := 0, passageWindow := 8,
    holdTimeout := 20, rowOps := [], toLifts := Vector.replicate 4 [], records := [], raises := [], resetsPending := 0 }

/-- A lift monitor after power-on (R68, R87), with the levels its lines then have. -/
def Lift.powerOn (line : LiftState) (carrierActive : Bool) : Lift :=
  { enabled := false, resortLift := 0, seatsPerCarrier := 4, corralLimit := 0,
    lineState := Debounce.powerOn .closedSchedule line 1000,
    carrierLine := { active := carrierActive, inactiveMs := 0 }, occupancy := 0, reservations := [], holdQueue := [],
    answers := Vector.replicate 12 [], changes := Vector.replicate 12 [], resetsPending := 0 }

/-- The ride journal after power-on (R141). -/
def Journal.powerOn : Journal :=
  { ring := [], nextSequence := 1, sendPosition := none, replayCursor := none,
    bins := Vector.replicate 4 (Vector.replicate 24 0), liftOverflow := Vector.replicate 4 0, stationOverflow := 0,
    lowMark := 1024, highMark := 3072, above := false, raises := [] }

/-- The pass table after power-on: empty (R7, R160). -/
def PassTable.powerOn : PassTable :=
  { slots := [], usedSlots := 0, cancellations := Vector.replicate 12 [], records := [], raises := [] }

/-- The arbiter after power-on and after station reset (R6). -/
def Arbiter.initial : Arbiter :=
  { pointer := 0, lastGroup := .lanes, lastTrunkRequester := .trunkOwners }

/-- The stream context after power-on and after station reset (R175). -/
def Stream.initial : Stream :=
  { state := .idle, generation := 0, sweepFlag := false, expectedChunk := 0, rowsApplied := 0, rowsRefused := 0,
    firstRefused := none, sweepCursor := 0, sweepDeleted := 0, sweepKeptBusy := 0, sweepKeptRefunded := 0,
    idleDeadline := none, chunk := none, raises := [] }

/-- A notice condition that is clear and allowed, as R194 has the nine other than TABLES_LOST after power-on reset. DESIGN CHOICE: its stored detail is
empty, where R194 states the latch and the mask only (log entry 48). -/
def NoticeCondition.clear : NoticeCondition :=
  { latched := false, masked := false, detail := .empty }

/-- The trunk port after power-on: STARTING, TABLES_LOST latched, its NOTICE placed (R190, R194). -/
def TrunkPort.powerOn : TrunkPort :=
  { partStatus := .starting, rxQueue := [], reserved := [], filled := [], malformed := 0, rxOverflow := 0,
    conditions := (Vector.replicate 10 NoticeCondition.clear).set 0 { latched := true, masked := false, detail := .empty },
    pendingNotices := [{ condition := .tablesLost, detail := .empty }], transmitter := none, raises := [], restarts := [] }

/-- The machine right after power-on reset. The lines are taken as idle at power-on: no lane present, every latch held, no pulse line
active, every lift's lines CLOSED_SCHEDULE, service key and reset line released (log entry 7). -/
def State.reset : State :=
  { trunk := TrunkPort.powerOn
    routed := []
    table := PassTable.powerOn
    arbiter := Arbiter.initial
    products := Vector.replicate 256 Product.undefinedRecord
    protection := { mode := .unprotected, low := 0, high := 255, sense := .inside }
    serviceKey := Debounce.powerOn false false 100
    calendar := Calendar.powerOn
    lanes := Vector.replicate 12 (Lane.powerOn false false false)
    lifts := Vector.replicate 4 (Lift.powerOn .closedSchedule false)
    journal := Journal.powerOn
    minimumPayout := 500
    stream := Stream.initial
    timebase := 0
    resetLine := { asserted := false, remaining := 10, armed := false }
    freeIndex := 0
    pending := [] }

end Sys2Proof.Machine
end

