-- ==== Sys2Proof/Machine/Ops.lean ====
section
/-! DEFINITION. The named operations every family shares: counts, deadlines, debounces, pulse lines, access to a lane or a lift, the slots of
the pass table, and the records of products. -/
namespace Sys2Proof.Machine

/-- What a step answers. -/
abbrev Result := Host.Outcome State Fault Refusal

/-! ### Counts -/

/-- One more, up to `cap`, at which a count stays (R49, R64, R76, R187). -/
def bump (cap n : Nat) : Nat := if n < cap then n + 1 else n

/-- One more, turning over from 4,294,967,295 to 0 (R132). -/
def turnOver (n : Nat) : Nat := (n + 1) % 4294967296

/-- `n` held between `low` and `high`. -/
def clamp (low high n : Nat) : Nat := if n < low then low else if high < n then high else n

/-! ### Deadlines (R117) -/

/-- Whether the time from the reading a deadline was set from, counted forward round the wrap, is at or above its duration (R117). -/
def Deadline.expired (d : Deadline) (now : Reading) : Bool := d.duration ≤ (now - d.setAt).toNat

/-! ### Lines -/

/-- The line takes a level: it stops the debounce when it is the debounced one and else restarts it with `ms` (R23, R46, R70). A level the
line already has is no change. DESIGN CHOICE: so too when the time has run out and the expiry has not yet been taken, an order of the two arrivals that the manual does not
state (log entry 47). -/
def Debounce.lineTakes {α : Type} [DecidableEq α] (d : Debounce α) (level : α) (ms : Nat) : Debounce α :=
  if level = d.line then d
  else { d with line := level, remaining := if level = d.debounced then none else some ms }

/-- Whether the line has held another level than the debounced one for its whole time. -/
def Debounce.isDue {α : Type} (d : Debounce α) : Bool := d.remaining = some 0

/-- The debounced level becomes the line's. -/
def Debounce.settled {α : Type} (d : Debounce α) : Debounce α := { d with debounced := d.line, remaining := none }

/-- One millisecond less to run. -/
def countDown (remaining : Option Nat) : Option Nat := remaining.map (· - 1)

/-- Whether the line, taking the level, becomes active after at least 20 ms of inactivity (R45, R72). -/
def PulseLine.counts (p : PulseLine) (active : Bool) : Bool := active && !p.active && decide (20 ≤ p.inactiveMs)

/-- The line takes a level; becoming inactive starts the 20 ms measure (R45, R72). -/
def PulseLine.takes (p : PulseLine) (active : Bool) : PulseLine :=
  if active = p.active then p else { active := active, inactiveMs := 0 }

/-- One millisecond of the 20 ms measure. -/
def PulseLine.tick (p : PulseLine) : PulseLine :=
  if p.active then p else { p with inactiveMs := bump 20 p.inactiveMs }

/-! ### Lanes and lifts -/

/-- All lanes, 0 to 11. -/
def laneNumbers : List LaneNo := [0, 1, 2, 3, 4, 5, 6, 7, 8, 9, 10, 11]

/-- All lifts, 0 to 3. -/
def liftNumbers : List LiftNo := [0, 1, 2, 3]

def State.lane (s : State) (l : LaneNo) : Lane := s.lanes[l]

def State.setLane (s : State) (l : LaneNo) (x : Lane) : State := { s with lanes := s.lanes.set l x }

def State.lift (s : State) (i : LiftNo) : Lift := s.lifts[i]

def State.setLift (s : State) (i : LiftNo) (x : Lift) : State := { s with lifts := s.lifts.set i x }

/-- The lift state: CLOSED_SCHEDULE while disabled, else the debounced line state (R71). -/
def Lift.state (x : Lift) : LiftState := if x.enabled then x.lineState.debounced else .closedSchedule

/-- In operation: RUNNING or STOPPED (R71). -/
def Lift.inOperation (x : Lift) : Bool :=
  match x.state with
  | .running | .stopped => true
  | .closedWeather | .closedSchedule => false

/-! ### The slots of the pass table (R1, R2) -/

/-- The bucket of a UID: its four quarters combined by exclusive-or, modulo 8,192 (R1). -/
def bucketOf (uid : Uid) : Nat :=
  (uid.extractLsb' 48 16 ^^^ uid.extractLsb' 32 16 ^^^ uid.extractLsb' 16 16 ^^^ uid.extractLsb' 0 16).toNat % 8192

/-- What an unlisted slot reads as: free. -/
def slotAt : List (Nat × PassRow) → Nat → Option PassRow
  | [], _ => none
  | (k, row) :: rest, slot => if k = slot then some row else slotAt rest slot

/-- A row is put in a slot, in rising order of slot number; the slot's old row goes. -/
def putSlot : List (Nat × PassRow) → Nat → PassRow → List (Nat × PassRow)
  | [], slot, row => [(slot, row)]
  | (k, old) :: rest, slot, row =>
    if slot < k then (slot, row) :: (k, old) :: rest
    else if slot = k then (slot, row) :: rest
    else (k, old) :: putSlot rest slot row

/-- A slot is freed. -/
def freeSlot : List (Nat × PassRow) → Nat → List (Nat × PassRow)
  | [], _ => []
  | (k, row) :: rest, slot => if k = slot then rest else (k, row) :: freeSlot rest slot

/-- The slots of a bucket, in rising order. -/
def bucketSlots (bucket : Nat) : List Nat := (List.range 8).map (8 * bucket + ·)

/-- Lookup: the slot of the UID's bucket whose row carries the UID, with its row (R2). -/
def lookup (slots : List (Nat × PassRow)) (uid : Uid) : Option (Nat × PassRow) :=
  (bucketSlots (bucketOf uid)).findSome? fun slot =>
    match slotAt slots slot with
    | some row => if row.uid = uid then some (slot, row) else none
    | none => none

/-- The lowest-numbered free slot of the UID's bucket (R2). -/
def freeSlotFor (slots : List (Nat × PassRow)) (uid : Uid) : Option Nat :=
  (bucketSlots (bucketOf uid)).find? fun slot => (slotAt slots slot).isNone

/-- The canonical form of the slots: strictly rising slot numbers, each below 65,536. -/
def slotsWf : List (Nat × PassRow) → Bool
  | [] => true
  | [(k, _)] => decide (k < 65536)
  | (k, _) :: (k', row) :: rest => decide (k < k') && slotsWf ((k', row) :: rest)

/-! ### Products -/

def State.product (s : State) (code : ProductCode) : Product := s.products[code]

def State.setProduct (s : State) (code : ProductCode) (p : Product) : State :=
  { s with products := s.products.set code p }

/-- The row count of a product goes up by one (R17). -/
def State.countRow (s : State) (code : ProductCode) : State :=
  s.setProduct code { s.product code with rowCount := (s.product code).rowCount + 1 }

/-- The row count of a product goes down by one (R17). -/
def State.uncountRow (s : State) (code : ProductCode) : State :=
  s.setProduct code { s.product code with rowCount := (s.product code).rowCount - 1 }

/-- A row is written in the slot it stands in. -/
def State.writeRow (s : State) (slot : Nat) (row : PassRow) : State :=
  { s with table := { s.table with slots := putSlot s.table.slots slot row } }

/-- A row is inserted in a free slot: used-slot count and row count go up (R2, R10, R17). -/
def State.insertRow (s : State) (slot : Nat) (row : PassRow) : State :=
  { s with table := { s.table with slots := putSlot s.table.slots slot row, usedSlots := s.table.usedSlots + 1 } }.countRow row.product

/-- A row is deleted: its slot is freed, used-slot count and row count go down (R2, R14, R17, R184). -/
def State.deleteRow (s : State) (slot : Nat) (row : PassRow) : State :=
  { s with table := { s.table with slots := freeSlot s.table.slots slot, usedSlots := s.table.usedSlots - 1 } }.uncountRow row.product

/-! ### Day lists (R4) -/

/-- A day is inserted at its ordered place; a day already present is not inserted again (R4). -/
def insertDay (d : Nat) : List Nat → List Nat
  | [] => [d]
  | x :: rest => if d < x then d :: x :: rest else if d = x then x :: rest else x :: insertDay d rest

/-- The union of two day lists, in ascending order without duplicates (R11). -/
def unionDays (stored given : List Nat) : List Nat := given.foldl (fun acc d => insertDay d acc) stored

/-- Strictly ascending. -/
def ascending : List Nat → Bool
  | [] => true
  | [_] => true
  | x :: y :: rest => decide (x < y) && ascending (y :: rest)

/-- The later of two optional days, an absent day counting as earlier than any day (R11). -/
def laterDay : Option Nat → Option Nat → Option Nat
  | none, b => b
  | some a, none => some a
  | some a, some b => some (max a b)

/-! ### What a lane reads when it takes an arrival -/

/-- What a lane event reads from other blocks: the timebase, the stamp (current day and second of day, R111), and for each lift whether it
discards this lane's place requests, passages, releases and leaves (R87). -/
structure LaneEnv where
  now : Reading
  stamp : Stamp
  discards : Vector Bool 4
  deriving DecidableEq, Repr

/-- A lift discards what a lane hands from the lift's own reset event until the lane has taken the same station reset (R87). -/
def State.laneEnv (s : State) (l : LaneNo) : LaneEnv :=
  { now := s.timebase
    stamp := { day := s.calendar.currentDay, second := s.calendar.secondOfDay }
    discards := s.lifts.map fun x => decide (x.resetsPending < (s.lane l).resetsPending) }

end Sys2Proof.Machine
end

