-- ==== Sys2Proof/Machine/Operands.lean ====
section
/-! DEFINITION. The operands a request carries: every request body of section 10.7 and R197, read from its bytes. A body is read as a form whose
fields still hold whatever the bytes say; whether a field is legal is the owner's check. -/
namespace Sys2Proof.Machine

/-! ### Numbers in bytes, most significant byte first (section 10.7) -/

/-- The number that bytes spell, most significant first. -/
def numberOf (bytes : List Byte) : Nat := bytes.foldl (fun n b => n * 256 + b.toNat) 0

/-- The number spelt by the `len` bytes from offset `at`. -/
def field (body : List Byte) (offset len : Nat) : Nat := numberOf ((body.drop offset).take len)

/-- The UID at an offset: 8 bytes (R197). -/
def uidField (body : List Byte) (offset : Nat) : Uid := BitVec.ofNat 64 (field body offset 8)

/-- A one-byte number of 0 to 255 at an offset, as a product code or a generation. -/
def byteField (body : List Byte) (offset : Nat) : Fin 256 := Fin.ofNat 256 (field body offset 1)

/-- The byte of a yes or no, or of a presence, names a value (R197). -/
def isFlag (n : Nat) : Bool := decide (n ≤ 1)

/-! ### Enumerated values (R197) -/

def passStatusOf : Nat → Option PassStatus
  | 0 => some .active
  | 1 => some .blocked
  | 2 => some .retired
  | _ => none

def productKindOf : Nat → Option ProductKind
  | 0 => some .multiDay
  | 1 => some .season
  | _ => none

def protectionModeOf : Nat → Option ProtectionMode
  | 0 => some .unprotected
  | 1 => some .keyed
  | 2 => some .locked
  | _ => none

def windowSenseOf : Nat → Option WindowSense
  | 0 => some .inside
  | 1 => some .outside
  | _ => none

def dayClassOf : Nat → Option DayClass
  | 0 => some .peak
  | 1 => some .regular
  | 2 => some .low
  | _ => none

/-- The modes of a REFUND_REQUEST (section 8.2). -/
inductive RefundMode where
  | quote | retire
  deriving DecidableEq, Repr

def refundModeOf : Nat → Option RefundMode
  | 0 => some .quote
  | 1 => some .retire
  | _ => none

def conditionOf : Nat → Option Condition
  | 0 => some .tablesLost
  | 1 => some .restarted
  | 2 => some .laneFault
  | 3 => some .laneDetached
  | 4 => some .journalHigh
  | 5 => some .journalOverflow
  | 6 => some .rxOverflow
  | 7 => some .overconsumed
  | 8 => some .streamDone
  | 9 => some .streamTimeout
  | _ => none

/-! ### The forms of the request bodies -/

/-- An optional field: its presence byte and its value byte (R197). -/
structure OptionalField where
  presence : Nat
  value : Nat
  deriving DecidableEq, Repr

def optionalField (body : List Byte) (offset : Nat) : OptionalField :=
  { presence := field body offset 1, value := field body (offset + 1) 1 }

/-- The field's value, absent when its presence byte says so. -/
def OptionalField.get (f : OptionalField) : Option Nat := if f.presence = 1 then some f.value else none

/-- The presence byte is 0 or 1, and a value that is present is at most `high`. -/
def OptionalField.ok (f : OptionalField) (high : Nat) : Bool :=
  isFlag f.presence && (decide (f.presence = 0) || decide (f.value ≤ high))

/-- The server part of a pass row, as PASS_PUT and stream rows carry it (section 10.7). -/
structure PassForm where
  uid : Uid
  product : ProductCode
  statusCode : Nat
  headcount : Nat
  expiry : OptionalField
  generation : Generation
  price : Nat
  seasonDays : Nat
  lastCounted : OptionalField
  listLength : Nat
  dayBytes : List Nat
  deriving DecidableEq, Repr

def passForm (body : List Byte) : PassForm :=
  { uid := uidField body 0
    product := byteField body 8
    statusCode := field body 9 1
    headcount := field body 10 1
    expiry := optionalField body 11
    generation := byteField body 13
    price := field body 14 4
    seasonDays := field body 18 1
    lastCounted := optionalField body 19
    listLength := field body 21 1
    dayBytes := ((body.drop 22).take 14).map (·.toNat) }

/-- The consumed day list the form carries. -/
def PassForm.consumed (f : PassForm) : List Nat := f.dayBytes.take f.listLength

/-- PRODUCT_PUT: the product code and every field of R16 except defined and the row count, in the order of R16 (R18, R197). -/
structure ProductForm where
  code : ProductCode
  kindCode : Nat
  dayCount : Nat
  validFrom : Nat
  validTo : Nat
  liftMask : BitVec 64
  rerideInterval : Nat
  groupAllowed : Nat
  refundable : Nat
  refundGrace : Nat
  peakRate : Nat
  regularRate : Nat
  lowRate : Nat
  refundFee : Nat
  deriving DecidableEq, Repr

def productForm (body : List Byte) : ProductForm :=
  { code := byteField body 0
    kindCode := field body 1 1
    dayCount := field body 2 1
    validFrom := field body 3 1
    validTo := field body 4 1
    liftMask := BitVec.ofNat 64 (field body 5 8)
    rerideInterval := field body 13 2
    groupAllowed := field body 15 1
    refundable := field body 16 1
    refundGrace := field body 17 1
    peakRate := field body 18 4
    regularRate := field body 22 4
    lowRate := field body 26 4
    refundFee := field body 30 4 }

/-- PROTECT_SET: a mode and a window of low code, high code and sense (R25). -/
structure ProtectForm where
  modeCode : Nat
  low : Nat
  high : Nat
  senseCode : Nat
  deriving DecidableEq, Repr

def protectForm (body : List Byte) : ProtectForm :=
  { modeCode := field body 0 1, low := field body 1 1, high := field body 2 1, senseCode := field body 3 1 }

/-- CALENDAR_PUT: day number, class, operating minutes and an optional credit percent (R39). -/
structure CalendarForm where
  day : Nat
  classCode : Nat
  operatingMinutes : Nat
  credit : OptionalField
  deriving DecidableEq, Repr

def calendarForm (body : List Byte) : CalendarForm :=
  { day := field body 0 1, classCode := field body 1 1, operatingMinutes := field body 2 2, credit := optionalField body 4 }

/-- LANE_CONFIG: lane, primary lift and optional secondary lift (R63). -/
structure LaneForm where
  lane : Nat
  primary : Nat
  secondary : OptionalField
  deriving DecidableEq, Repr

def laneForm (body : List Byte) : LaneForm :=
  { lane := field body 0 1, primary := field body 1 1, secondary := optionalField body 2 }

/-- LIFT_CONFIG: lift index and the four fields of R68 (R69). -/
structure LiftForm where
  lift : Nat
  enabled : Nat
  resortLift : Nat
  seats : Nat
  limit : Nat
  deriving DecidableEq, Repr

def liftForm (body : List Byte) : LiftForm :=
  { lift := field body 0 1, enabled := field body 1 1, resortLift := field body 2 1, seats := field body 3 1,
    limit := field body 4 2 }

/-- CONFIG: the six global settings (R193). -/
def settingsForm (body : List Byte) : Settings :=
  { passageWindow := field body 0 1, holdTimeout := field body 1 1, minimumPayout := field body 2 2,
    closureThreshold := field body 4 2, lowMark := field body 6 2, highMark := field body 8 2 }

/-- REFUND_REQUEST: a UID and a mode (section 8.2). Check 1 of R145, which is made before a row operation is presented. -/
def refundFormOk (body : List Byte) : Bool :=
  decide (uidField body 0 ≠ 0) && (refundModeOf (field body 8 1)).isSome

/-- The rows of a STREAM_DATA body: `n` rows of 36 bytes (section 10.7). -/
def streamRows : Nat → List Byte → List (List Byte)
  | 0, _ => []
  | n + 1, bytes => bytes.take 36 :: streamRows n (bytes.drop 36)

/-! ### Request kinds (section 10.7) -/

def RequestKind.ofByte (b : Byte) : Option RequestKind :=
  match b.toNat with
  | 0x01 => some .passPut | 0x02 => some .passSetStatus | 0x03 => some .passDelete | 0x04 => some .passRead
  | 0x05 => some .usageMerge
  | 0x08 => some .productPut | 0x09 => some .productClear | 0x0A => some .productRead | 0x0B => some .protectSet
  | 0x10 => some .dayOpen | 0x11 => some .dayClose | 0x12 => some .time | 0x13 => some .calendarPut
  | 0x14 => some .calendarRead
  | 0x18 => some .laneRelease | 0x19 => some .laneLock | 0x1A => some .laneFaultClear | 0x1B => some .laneConfig
  | 0x1C => some .laneRead
  | 0x20 => some .liftConfig | 0x21 => some .liftRead
  | 0x28 => some .journalAck | 0x29 => some .journalReplay | 0x2A => some .journalRead
  | 0x30 => some .refundRequest
  | 0x38 => some .streamOpen | 0x39 => some .streamData | 0x3A => some .streamSuspend | 0x3B => some .streamResume
  | 0x3C => some .streamClose | 0x3D => some .streamAbort
  | 0x40 => some .status | 0x41 => some .restart | 0x42 => some .config | 0x43 => some .noticeMask
  | 0x44 => some .noticeAck
  | _ => none

def RequestKind.toByte : RequestKind → Byte
  | .passPut => 0x01 | .passSetStatus => 0x02 | .passDelete => 0x03 | .passRead => 0x04 | .usageMerge => 0x05
  | .productPut => 0x08 | .productClear => 0x09 | .productRead => 0x0A | .protectSet => 0x0B
  | .dayOpen => 0x10 | .dayClose => 0x11 | .time => 0x12 | .calendarPut => 0x13 | .calendarRead => 0x14
  | .laneRelease => 0x18 | .laneLock => 0x19 | .laneFaultClear => 0x1A | .laneConfig => 0x1B | .laneRead => 0x1C
  | .liftConfig => 0x20 | .liftRead => 0x21
  | .journalAck => 0x28 | .journalReplay => 0x29 | .journalRead => 0x2A
  | .refundRequest => 0x30
  | .streamOpen => 0x38 | .streamData => 0x39 | .streamSuspend => 0x3A | .streamResume => 0x3B | .streamClose => 0x3C
  | .streamAbort => 0x3D
  | .status => 0x40 | .restart => 0x41 | .config => 0x42 | .noticeMask => 0x43 | .noticeAck => 0x44

/-- The bytes a body of this kind must hold so as not to end before the last fixed field of its layout (R187, R197). A STREAM_DATA holds the
rows it announces when their number is legal (log entry 12). -/
def RequestKind.bodyLength (kind : RequestKind) (body : List Byte) : Nat :=
  match kind with
  | .passPut => 36
  | .passSetStatus | .usageMerge | .refundRequest => 9
  | .passDelete | .passRead => 8
  | .productPut => 34
  | .productClear | .productRead | .dayOpen | .calendarRead => 1
  | .protectSet | .time | .laneConfig | .journalAck | .journalReplay => 4
  | .calendarPut | .liftConfig => 6
  | .laneRelease | .laneLock | .laneFaultClear | .laneRead | .liftRead | .journalRead | .noticeAck => 1
  | .streamOpen | .noticeMask => 2
  | .streamData => 3 + (if field body 2 1 ≤ 16 then 36 * field body 2 1 else 0)
  | .config => 10
  | .dayClose | .streamSuspend | .streamResume | .streamClose | .streamAbort | .status | .restart => 0

/-- The owners of a request, or the refusal of one that names no lane or lift of the part (R52, R60, R63, R65, R69, R86, R188; log entry
13). A lane number of FF means all lanes (R197). -/
def RequestKind.owners (kind : RequestKind) (body : List Byte) : Except ReplyCode (List Owner) :=
  match kind with
  | .passPut | .passSetStatus | .passDelete | .passRead | .usageMerge => .ok [.passTable]
  | .productPut | .productClear | .productRead | .protectSet => .ok [.productTable]
  | .dayOpen | .dayClose | .time | .calendarPut | .calendarRead => .ok [.calendar]
  | .laneRelease | .laneLock | .laneFaultClear =>
    if field body 0 1 = 0xFF then .ok (laneNumbers.map .lane)
    else if h : field body 0 1 < 12 then .ok [.lane ⟨field body 0 1, h⟩]
    else .error .range
  | .laneConfig | .laneRead => if h : field body 0 1 < 12 then .ok [.lane ⟨field body 0 1, h⟩] else .error .range
  | .liftConfig | .liftRead => if h : field body 0 1 < 4 then .ok [.lift ⟨field body 0 1, h⟩] else .error .range
  | .journalAck | .journalReplay | .journalRead => .ok [.journal]
  | .refundRequest => .ok [.refundUnit]
  | .streamOpen | .streamData | .streamSuspend | .streamResume | .streamClose | .streamAbort => .ok [.streamUnit]
  | .status | .restart | .config | .noticeMask | .noticeAck => .ok [.trunkPort]

/-! ### Frames as they arrive -/

/-- A trunk frame as the trunk port parses it: absent when malformed (R187). -/
def parseTrunkFrame (frame : List Byte) : Option RxFrame :=
  match frame with
  | version :: kind :: tagHigh :: tagLow :: lengthHigh :: lengthLow :: rest =>
    let length := numberOf [lengthHigh, lengthLow]
    let body := rest.take length
    let needed := match RequestKind.ofByte kind with
      | some k => k.bodyLength body
      | none => 0
    if version = 1 ∧ length ≤ rest.length ∧ needed ≤ body.length then
      some { kind := kind, tag := tagHigh ++ tagLow, body := body }
    else none
  | _ => none

/-- What the bytes of a lane frame received whole turn out to be (R49, R198). -/
inductive LaneFrame where
  | tap (uid : Uid)
  | key (position : KeyPosition)
  | bad
  deriving DecidableEq, Repr

/-- The 8-bit sum of every byte of a frame (R198). -/
def byteSum (bytes : List Byte) : Byte := bytes.foldl (· + ·) 0

/-- The checks of R49 on the bytes of a lane frame: check byte, kind, length and key position (R198). -/
def parseLaneFrame (frame : List Byte) : LaneFrame :=
  if byteSum frame ≠ 0 then .bad
  else match frame with
  | [1, 8, b0, b1, b2, b3, b4, b5, b6, b7, _] => .tap (b0 ++ b1 ++ b2 ++ b3 ++ b4 ++ b5 ++ b6 ++ b7)
  | [2, 1, 0, _] => .key .normal
  | [2, 1, 1, _] => .key .free
  | [2, 1, 2, _] => .key .shut
  | _ => .bad

end Sys2Proof.Machine
end

