-- ==== Sys2Proof/Machine/Formats.lean ====
section
/-! DEFINITION. The bytes the part sends: reply bodies, RECORD and NOTICE frames and SHOW frames (section 10.7, R197, R198). Every reply body opens with
the reply code; then come all the fields any reply of its kind carries, 0 where this one carries none. -/
namespace Sys2Proof.Machine

/-! ### Fields -/

/-- A number in `len` bytes, most significant first. -/
def be (n : Nat) : Nat → List Byte
  | 0 => []
  | len + 1 => BitVec.ofNat 8 (n / 256 ^ len) :: be n len

def uidBytes (uid : Uid) : List Byte := be uid.toNat 8

def flagByte (b : Bool) : Byte := if b then 1 else 0

/-- An optional number: presence byte and `len` bytes (R197). -/
def optionalBytes (n : Option Nat) (len : Nat) : List Byte :=
  match n with
  | none => 0 :: be 0 len
  | some v => 1 :: be v len

/-- A body filled with bytes 0 up to `len` bytes (R197). -/
def padTo (len : Nat) (bytes : List Byte) : List Byte := bytes ++ List.replicate (len - bytes.length) 0

/-- A list: a length byte, then `greatest` entries of `size` bytes, those beyond the length 0 (R197). No more than `greatest` are carried (log entry
21). -/
def listBytes (entries : List (List Byte)) (greatest size : Nat) : List Byte :=
  BitVec.ofNat 8 (min greatest entries.length) :: padTo (greatest * size) (entries.take greatest).flatten

/-! ### Enumerated values, by their position where the manual first lists them (R197) -/

def PassStatus.code : PassStatus → Byte
  | .active => 0 | .blocked => 1 | .retired => 2

def ProductKind.code : ProductKind → Byte
  | .multiDay => 0 | .season => 1

def DayClass.code : DayClass → Byte
  | .peak => 0 | .regular => 1 | .low => 2

def CreditSource.code : CreditSource → Byte
  | .computed => 0 | .frozen => 1 | .set => 2

def DayState.code : DayState → Byte
  | .ahead => 0 | .opened => 1 | .closed => 2

def KeyPosition.code : KeyPosition → Byte
  | .normal => 0 | .free => 1 | .shut => 2

def ConfiguredMode.code : ConfiguredMode → Byte
  | .locked => 0 | .released => 1

def EffectiveState.code : EffectiveState → Byte
  | .detached => 0 | .faulted => 1 | .overrideFree => 2 | .overrideShut => 3 | .locked => 4 | .dayClosed => 5
  | .noLift => 6 | .inService => 7

def DenyReason.index : DenyReason → Fin 15
  | .laneLocked => 0 | .laneShut => 1 | .laneFault => 2 | .dayClosed => 3 | .noLift => 4 | .laneBusy => 5
  | .unknownPass => 6 | .blocked => 7 | .retired => 8 | .noProduct => 9 | .notValidToday => 10 | .wrongLift => 11
  | .passInUse => 12 | .tooSoon => 13 | .noDaysLeft => 14

def Signal.code : Signal → Byte
  | .green => 0 | .amber => 1 | .red => 2 | .seeOffice => 3 | .dark => 4

/-- SHOW reason codes (R198). -/
def ShowReason.code : ShowReason → Byte
  | .state e => e.code
  | .denied r => BitVec.ofNat 8 (16 + r.index.val)
  | .complete => 32 | .balked => 33 | .partlyPassed => 34 | .holdExpired => 35
  | .liftChanged => 36 | .liftClosed => 37 | .passStatus => 38

def Phase.code : Phase → Byte
  | .hold => 0 | .unlocked => 1

def LiftState.code : LiftState → Byte
  | .closedSchedule => 0 | .running => 1 | .stopped => 2 | .closedWeather => 3

def StreamState.code : StreamState → Byte
  | .idle => 0 | .opened => 1 | .suspended => 2 | .sweeping => 3

def PartStatus.code : PartStatus → Byte
  | .starting => 0 | .ready => 1

def RecordKind.code : RecordKind → Byte
  | .passage => 0 | .free => 1 | .intrusion => 2 | .refund => 3 | .adjustment => 4

def Condition.index : Condition → Fin 10
  | .tablesLost => 0 | .restarted => 1 | .laneFault => 2 | .laneDetached => 3 | .journalHigh => 4 | .journalOverflow => 5
  | .rxOverflow => 6 | .overconsumed => 7 | .streamDone => 8 | .streamTimeout => 9

/-- The numeric value of a reply code (section 10.6). -/
def ReplyCode.code : ReplyCode → Byte
  | .ok => 0 | .okNoChange => 1 | .okClamped => 2 | .unknownKind => 3 | .starting => 4 | .wrongState => 5 | .range => 6
  | .badField => 7 | .unknown => 8 | .noProduct => 9 | .bucketFull => 10 | .isProtected => 11 | .keyRequired => 12
  | .productInUse => 13 | .dDecrease => 14 | .kindChange => 15 | .passBusy => 16 | .retiredLocal => 17
  | .overconsumed => 18 | .futureDay => 19 | .dayOrder => 20 | .noDay => 21 | .blocked => 22 | .alreadyRetired => 23
  | .notRefundable => 24 | .expired => 25 | .nothingUnused => 26 | .belowMinimum => 27 | .journalFull => 28
  | .badSequence => 29 | .streamBusy => 30 | .noStream => 31 | .outOfOrder => 32 | .suspended => 33 | .stillPresent => 34

/-! ### Reply bodies -/

/-- The bytes of a reply body after its code (R197). -/
def RequestKind.replyLength : RequestKind → Nat
  | .passRead => 57
  | .usageMerge => 30
  | .productRead => 39
  | .calendarRead => 9
  | .laneRead => 77
  | .liftRead => 98
  | .journalAck => 2
  | .journalRead => 135
  | .refundRequest => 47
  | .streamOpen => 1
  | .streamData => 39
  | .streamClose => 17
  | .streamAbort => 23
  | .status => 45
  | .config => 10
  | .passPut | .passSetStatus | .passDelete | .productPut | .productClear | .protectSet | .dayOpen | .dayClose | .time
  | .calendarPut | .laneRelease | .laneLock | .laneFaultClear | .laneConfig | .liftConfig | .journalReplay
  | .streamSuspend | .streamResume | .restart | .noticeMask | .noticeAck => 0

/-- A reply body: the code, the fields carried, and 0 for the rest. -/
def replyBody (kind : RequestKind) (code : ReplyCode) (fields : List Byte) : List Byte :=
  code.code :: padTo kind.replyLength fields

/-- The pass row encoding of 57 bytes (section 10.7). -/
def passRowBytes (slot : Nat) (row : PassRow) : List Byte :=
  uidBytes row.uid ++ be row.product.val 1 ++ [row.status.code] ++ be row.headcount 1 ++ optionalBytes row.expiryDay 1
    ++ be row.generation.val 1 ++ be row.pricePerHead 4 ++ be row.seasonDays 1 ++ optionalBytes row.lastCountedDay 1
    ++ listBytes (row.consumed.map (be · 1)) 14 1 ++ be slot 2
    ++ (match row.lastPassage with
        | none => List.replicate 7 0
        | some p => 1 :: be p.lift.val 1 ++ be p.day 1 ++ be p.second 4)
    ++ optionalBytes (row.pendingLane.map (·.val)) 1
    ++ (match row.refund with
        | none => List.replicate 10 0
        | some r => 1 :: be r.paidPerHead 4 ++ be r.balancePerHead 4 ++ be r.retireDay 1)

/-- PRODUCT_READ: every field of R16 in its order, then whether the code is protected (R20). -/
def productBytes (p : Product) (isProtected : Bool) : List Byte :=
  [flagByte p.isDefined, p.kind.code] ++ be p.dayCount 1 ++ be p.validFrom 1 ++ be p.validTo 1 ++ be p.liftMask.toNat 8
    ++ be p.rerideInterval 2 ++ [flagByte p.groupAllowed, flagByte p.refundable] ++ be p.refundGrace 1 ++ be p.peakRate 4
    ++ be p.regularRate 4 ++ be p.lowRate 4 ++ be p.refundFee 4 ++ be p.rowCount 4 ++ [flagByte isProtected]

/-- CALENDAR_READ (R40). -/
def calendarBytes (r : DayRecord) (credit : Nat) (isCurrent : Bool) : List Byte :=
  [r.dayClass.code] ++ be r.operatingMinutes 2 ++ be r.closedLiftMinutes 2 ++ be credit 1
    ++ [r.source.code, r.state.code, flagByte isCurrent]

/-- The 22 lane counters in the order of R64. -/
def counterBytes (c : LaneCounters) : List Byte :=
  be c.taps 2 ++ be c.grants 2 ++ (c.denials.toList.map (be · 2)).flatten ++ be c.balks 2 ++ be c.partials 2
    ++ be c.holdExpiries 2 ++ be c.intrusions 2 ++ be c.freePassages 2

/-- LANE_READ (R65). -/
def laneBytes (x : Lane) : List Byte :=
  [flagByte x.presence.debounced, x.keyPosition.code, x.configuredMode.code, flagByte x.actuationFail,
      flagByte x.stuckOpen, flagByte x.latchReleased, flagByte x.unlock]
    ++ be x.primaryLift.val 1 ++ optionalBytes (x.secondaryLift.map (·.val)) 1 ++ optionalBytes (x.servedLift.map (·.val)) 1
    ++ [x.effective.code]
    ++ (match x.admission with
        | none => List.replicate 14 0
        | some a => 1 :: uidBytes a.uid ++ be a.lift.val 1 ++ optionalBytes (a.phase.map (·.code.toNat)) 1
            ++ be a.headsTotal 1 ++ be a.headsPassed 1)
    ++ counterBytes x.counters ++ be x.linkErrors 2
    ++ (match x.lastShown with
        | none => List.replicate 4 0
        | some h => 1 :: h.signal.code :: h.reason.code :: be h.heads 1)

/-- LIFT_READ (R86), with the lanes whose served lift is this lift. DESIGN CHOICE: the lanes of the reservation list go in the order their places were handed, an
order R86 does not state (log entry 43). -/
def liftBytes (x : Lift) (servedBy : List LaneNo) : List Byte :=
  [flagByte x.enabled] ++ be x.resortLift 1 ++ be x.seatsPerCarrier 1 ++ be x.corralLimit 2
    ++ [x.lineState.debounced.code, x.state.code, flagByte x.inOperation] ++ be x.occupancy 2
    ++ be x.reservations.length 1 ++ listBytes (x.reservations.map fun r => be r.lane.val 1) 12 1
    ++ listBytes (x.holdQueue.map fun e => be e.lane.val 1 ++ be e.holdStart.toNat 4) 12 5
    ++ listBytes (servedBy.map fun l => be l.val 1) 12 1

/-- JOURNAL_READ of a lift, or of the station when absent (R140). -/
def journalBytes (j : Journal) (lift : Option LiftNo) : List Byte :=
  be j.ring.length 2 ++ optionalBytes (j.ring.head?.map (·.sequence)) 4 ++ optionalBytes (j.ring.getLast?.map (·.sequence)) 4
    ++ be j.nextSequence 4 ++ optionalBytes j.sendPosition 4 ++ optionalBytes j.replayCursor 4 ++ be j.lowMark 2
    ++ be j.highMark 2 ++ [flagByte j.above]
    ++ (match lift with
        | some i => (j.bins[i].toList.map (be · 4)).flatten ++ be j.liftOverflow[i] 4 ++ be 0 4
        | none => List.replicate 100 0 ++ be j.stationOverflow 4)

def settingsBytes (v : Settings) : List Byte :=
  be v.passageWindow 1 ++ be v.holdTimeout 1 ++ be v.minimumPayout 2 ++ be v.closureThreshold 2 ++ be v.lowMark 2
    ++ be v.highMark 2

/-- An optional first refused row: presence, chunk number, position, reason (section 10.7). -/
def firstRefusedBytes : Option FirstRefused → List Byte
  | none => List.replicate 5 0
  | some f => 1 :: be f.chunk 2 ++ be f.position 1 ++ [f.reason.code]

/-- STREAM_CLOSE (R181). -/
def streamCloseBytes (x : Stream) (newState : StreamState) : List Byte :=
  be x.generation.val 1 ++ be x.rowsApplied 4 ++ be x.rowsRefused 4 ++ firstRefusedBytes x.firstRefused
    ++ be x.expectedChunk 2 ++ [newState.code]

/-- STREAM_ABORT (R183); the sweep's figures only when a sweep was under way. -/
def streamAbortBytes (x : Stream) : List Byte :=
  be x.generation.val 1 ++ be x.rowsApplied 4 ++ be x.rowsRefused 4
    ++ (if x.state = .sweeping then be x.sweepCursor 2 ++ be x.sweepDeleted 4 ++ be x.sweepKeptBusy 4
          ++ be x.sweepKeptRefunded 4 else [])

/-- STREAM_DATA of an applied chunk (R179): the new expected chunk number, the chunk number, rows applied and refused, and the position and
reply code of each refused row. -/
def chunkBytes (expected number applied : Nat) (refused : List (Nat × ReplyCode)) : List Byte :=
  be expected 2 ++ be number 2 ++ be applied 1 ++ be refused.length 1
    ++ listBytes (refused.map fun r => be r.1 1 ++ [r.2.code]) 16 2

/-! ### Frames on the trunk -/

/-- A frame with its header: version 1, kind, tag, body length (section 10.7). -/
def trunkFrame (kind : Byte) (tag : Tag) (body : List Byte) : List Byte :=
  [1, kind] ++ be tag.toNat 2 ++ be body.length 2 ++ body

/-- A RECORD body of 29 bytes (section 10.7). DESIGN CHOICE: the day, the lane, the lift index and the resort lift number are 0 where their field is absent, and flag bits 5
to 7 are 0; the table states no value there (log entry 45). -/
def recordBody (r : JournalRecord) (replay : Bool) : List Byte :=
  let b := r.body
  let flags := (if replay then 1 else 0) + (if b.newDay = some true then 2 else 0) + (if b.day.isSome then 4 else 0)
    + (if b.lane.isSome then 8 else 0) + (if b.lift.isSome then 16 else 0)
  be r.sequence 4 ++ [b.kind.code] ++ be flags 1 ++ be b.second 4 ++ be (b.day.getD 0) 1
    ++ be ((b.lane.map (·.val)).getD 0) 1 ++ be ((b.lift.map (·.val)).getD 0) 1 ++ be (r.resortLift.getD 0) 1
    ++ uidBytes (b.uid.getD 0) ++ be (b.headIndex.getD 0) 1 ++ be (b.headcount.getD 0) 1 ++ be (b.amountPerHead.getD 0) 4
    ++ be (b.unusedDays.getD 0) 1

/-- A NOTICE body of 36 bytes (section 10.7). -/
def noticeBody (n : Raise) : List Byte :=
  let condition := be n.condition.index.val 1
  match n.detail with
  | .empty => padTo 36 condition
  | .lane l => padTo 36 (condition ++ be l.val 1)
  | .heldCount v => padTo 36 (padTo 16 condition ++ be v 4)
  | .overflow lift v => padTo 36 (padTo 16 (condition ++ be ((lift.map (·.val)).getD 0xFF) 1) ++ be v 4)
  | .receiveOverflow v => padTo 36 (padTo 16 condition ++ be v 4)
  | .merge uid day => padTo 36 (padTo 8 (padTo 2 condition ++ be day 1) ++ uidBytes uid)
  | .streamDone g applied refused first deleted busy refunded =>
    padTo 16 (padTo 2 condition ++ be g.val 1 ++ firstRefusedBytes first) ++ be applied 4 ++ be refused 4 ++ be deleted 4
      ++ be busy 4 ++ be refunded 4
  | .streamTimeout g expected applied refused =>
    padTo 36 (padTo 16 (padTo 2 condition ++ be g.val 1) ++ be applied 4 ++ be refused 4 ++ be expected 4)

/-! ### Frames on the lane link (R198) -/

/-- A lane frame: kind, length, body, and the check byte that makes the sum of every byte 0. -/
def laneFrame (kind : Byte) (body : List Byte) : List Byte :=
  let opened := kind :: BitVec.ofNat 8 body.length :: body
  opened ++ [-(byteSum opened)]

def tapFrame (uid : Uid) : List Byte := laneFrame 1 (uidBytes uid)

def keyFrame (position : KeyPosition) : List Byte := laneFrame 2 [position.code]

def showFrame (x : Show) : List Byte := laneFrame 0x81 [x.signal.code, x.reason.code, BitVec.ofNat 8 x.heads]

end Sys2Proof.Machine
end

