-- ==== Sys2Proof/Machine/Flags.lean ====
section
/-! DEFINITION. The status the trunk port keeps for the server: the notice conditions with their latches, masks and details, the pending notice list
(R189, R194 to R196), and the reply places (R188). -/
namespace Sys2Proof.Machine

/-! ### Notice conditions -/

def TrunkPort.condition (t : TrunkPort) (c : Condition) : NoticeCondition := t.conditions[c.index]

def TrunkPort.setCondition (t : TrunkPort) (c : Condition) (x : NoticeCondition) : TrunkPort :=
  { t with conditions := t.conditions.set c.index x }

/-- A NOTICE joins the pending notice list, or replaces the detail of the entry its condition already has there (R189). -/
def placeIn : List Raise → Raise → List Raise
  | [], n => [n]
  | x :: rest, n => if x.condition = n.condition then n :: rest else x :: placeIn rest n

def TrunkPort.placeNotice (t : TrunkPort) (n : Raise) : TrunkPort := { t with pendingNotices := placeIn t.pendingNotices n }

/-- The trunk port takes a raise: the detail is stored; a clear latch becomes latched and, if the mask allows, a NOTICE is placed (R194). -/
def TrunkPort.takeRaise (t : TrunkPort) (r : Raise) : TrunkPort :=
  let c := t.condition r.condition
  let stored := t.setCondition r.condition { c with latched := true, detail := r.detail }
  if !c.latched && !c.masked then stored.placeNotice r else stored

/-- RESTARTED at a station reset: raised, and its NOTICE placed if the mask allows even when it was already latched (R192, R194). -/
def TrunkPort.raiseRestarted (t : TrunkPort) : TrunkPort :=
  let c := t.condition .restarted
  let stored := t.setCondition .restarted { c with latched := true, detail := .empty }
  if c.masked then stored else stored.placeNotice { condition := .restarted, detail := .empty }

/-! ### Reply places -/

/-- The reply places in use: reserved, filled, or held by the reply in the transmitter until it has been sent (R188). -/
def TrunkPort.placesUsed (t : TrunkPort) : Nat :=
  t.reserved.length + t.filled.length
    + (match t.transmitter with
       | some x => if x.occupies = .replyPlace then 1 else 0
       | none => 0)

/-- The lowest number that no reserved place has. -/
def TrunkPort.freshPlace (t : TrunkPort) : Nat :=
  ((List.range 16).find? fun n => !t.reserved.any fun p => p.number == n).getD 16

/-- The reply that fills a reserved place (R187, R197): the request's kind plus 80 (hexadecimal), its tag, and the body. -/
def ReservedPlace.reply (p : ReservedPlace) (code : ReplyCode) (fields : List Byte) : Reply :=
  { kind := p.kind.toByte + 0x80, tag := p.tag, body := replyBody p.kind code fields }

def TrunkPort.place (t : TrunkPort) (number : Nat) : Option ReservedPlace :=
  t.reserved.find? fun p => p.number == number

/-- An owner's reply fills the reserved place (R188). -/
def TrunkPort.fill (t : TrunkPort) (number : Nat) (code : ReplyCode) (fields : List Byte) : TrunkPort :=
  match t.place number with
  | none => t
  | some p =>
    { t with reserved := t.reserved.filter (fun q => q.number != number), filled := t.filled ++ [p.reply code fields] }

/-- The trunk owner or other block that took the request hands its reply. -/
def State.answer (s : State) (place : Option Nat) (code : ReplyCode) (fields : List Byte) : State :=
  match place with
  | none => s
  | some n => { s with trunk := s.trunk.fill n code fields }

/-- The reply code of a request that several owners answer together: a lane request that clears faults (R60), a change of mode (R52), or
CONFIG (R193). -/
def jointCode (kind : RequestKind) (changed flagged : Bool) : ReplyCode :=
  if flagged then (match kind with | .config => .okClamped | _ => .stillPresent)
  else if changed then .ok else .okNoChange

/-- The fields of such a reply: the six values as stored for CONFIG, none otherwise. -/
def jointFields (kind : RequestKind) (stored : Settings) : List Byte :=
  match kind with
  | .config => settingsBytes stored
  | _ => []

/-- One owner has answered; when none is awaited any longer, the reply fills its place. -/
def TrunkPort.jointAnswer (t : TrunkPort) (number : Nat) (changed flagged : Bool) (store : Settings → Settings) : TrunkPort :=
  match t.place number with
  | none => t
  | some p =>
    let q : ReservedPlace :=
      { p with awaiting := p.awaiting - 1, changed := p.changed || changed, flagged := p.flagged || flagged,
               stored := store p.stored }
    if q.awaiting = 0 then
      { t with reserved := t.reserved.filter (fun x => x.number != number),
               filled := t.filled ++ [q.reply (jointCode q.kind q.changed q.flagged) (jointFields q.kind q.stored)] }
    else { t with reserved := t.reserved.map fun x => if x.number = number then q else x }

def State.jointAnswer (s : State) (place : Option Nat) (changed flagged : Bool) (store : Settings → Settings) : State :=
  match place with
  | none => s
  | some n => { s with trunk := s.trunk.jointAnswer n changed flagged store }

end Sys2Proof.Machine
end

