-- ==== Sys2Proof/Machine/Port.lean ====
section
/-! DEFINITION. Who is served next: the taking of a routed request by its owner (R188), and the table port arbiter (R6). -/
namespace Sys2Proof.Machine

/-! ### Requests routed to their owners -/

/-- The oldest request routed to an owner, which it takes next (R188). -/
def State.nextFor (s : State) (owner : Owner) : Option Routed := s.routed.find? fun r => r.owner = owner

/-- The oldest request routed to an owner is taken. -/
def State.dropNextFor (s : State) (owner : Owner) : State :=
  { s with routed := s.routed.eraseP fun r => r.owner = owner }

/-- The owner takes its next request, when it is of this kind. -/
def State.takeRequest (s : State) (owner : Owner) (kind : RequestKind) : Option (Routed × State) :=
  match s.nextFor owner with
  | some r => if r.kind = kind then some (r, s.dropNextFor owner) else none
  | none => none

/-! ### The table port arbiter -/

/-- Whether a request is served by a row operation at the table port (R6, R21, R142, R168). A REFUND_REQUEST that fails check 1 of R145 never
reaches the table port. -/
def Routed.usesPort (r : Routed) : Bool :=
  match r.kind with
  | .passPut | .passSetStatus | .passDelete | .passRead | .usageMerge | .productPut | .productClear => true
  | .refundRequest => refundFormOk r.body
  | _ => false

/-- The row operation the trunk owners present: that of the request routed first (R6), once its owner has taken those routed to it before. -/
def presentedIn : List Routed → List Owner → Option Routed
  | [], _ => none
  | r :: rest, waiting =>
    if r.usesPort then (if r.owner ∈ waiting then none else some r) else presentedIn rest (r.owner :: waiting)

/-- The requesters of the table port (R6). -/
inductive Requester where
  | lane (lane : LaneNo)
  | trunkOwners
  | streamUnit
  | sweep
  deriving DecidableEq, Repr

/-- The first waiting lane at or after the round-robin pointer, counting up and wrapping from 11 to 0 (R6). -/
def State.waitingLane (s : State) : Option LaneNo :=
  (laneNumbers.map (s.arbiter.pointer + ·)).find? fun l => !(s.lane l).rowOps.isEmpty

/-- The requester of the trunk-and-stream group that is served when the group is: the two alternate when both wait (R6). -/
def State.waitingTrunk (s : State) : Option Requester :=
  match (presentedIn s.routed []).isSome, s.stream.chunk.isSome with
  | true, true =>
    (match s.arbiter.lastTrunkRequester with
    | .trunkOwners => some .streamUnit
    | .streamUnit => some .trunkOwners)
  | true, false => some .trunkOwners
  | false, true => some .streamUnit
  | false, false => none

/-- The requester to which the arbiter makes its next grant (R6); none while the memory clear runs (R7). -/
def State.nextGrant (s : State) : Option Requester :=
  match s.trunk.partStatus with
  | .starting => none
  | .ready =>
    match s.waitingLane, s.waitingTrunk with
    | some l, some t =>
      (match s.arbiter.lastGroup with
      | .lanes => some t
      | .trunkAndStream => some (.lane l))
    | some l, none => some (.lane l)
    | none, some t => some t
    | none, none => if s.stream.state = .sweeping then some .sweep else none

/-- The arbiter after a grant (R6). A sweep step is of neither group and leaves the arbiter as it is (log entry 15). -/
def Arbiter.granted (a : Arbiter) (r : Requester) : Arbiter :=
  match r with
  | .lane l => { a with pointer := l + 1, lastGroup := .lanes }
  | .trunkOwners => { a with lastGroup := .trunkAndStream, lastTrunkRequester := .trunkOwners }
  | .streamUnit => { a with lastGroup := .trunkAndStream, lastTrunkRequester := .streamUnit }
  | .sweep => a

/-- The state after a grant, before the row operation. -/
def State.granted (s : State) (r : Requester) : State := { s with arbiter := s.arbiter.granted r }

/-- The table port grants a requester its row operation, when the arbiter's next grant is to it. -/
def State.grant (s : State) (r : Requester) : Option State := if s.nextGrant = some r then some (s.granted r) else none

/-- The table port grants the trunk owners, and the request served is of this kind. -/
def State.takePortRequest (s : State) (kind : RequestKind) : Option (Routed × State) :=
  match s.grant .trunkOwners, presentedIn s.routed [] with
  | some s', some r => if r.kind = kind then some (r, s'.dropNextFor r.owner) else none
  | _, _ => none

/-- The first operation leaves a lane's row-operation list (R114). -/
def State.dropRowOp (s : State) (l : LaneNo) : State := s.setLane l { s.lane l with rowOps := (s.lane l).rowOps.tail }

/-- The table port grants a lane, and performs the first operation of its row-operation list (R114). -/
def State.takeRowOp (s : State) (l : LaneNo) : Option (RowOp × State) :=
  match s.grant (.lane l), (s.lane l).rowOps with
  | some s', op :: _ => some (op, s'.dropRowOp l)
  | _, _ => none

end Sys2Proof.Machine
end

