-- ==== Sys2Proof/Machine/LaneOps.lean ====
section
/-! DEFINITION. What a lane controller does inside one event (chapters 3, 5 and 6): deriving its state, showing, handing on, ending an admission,
driving the turnstile. Each is a function of the lane context and of what the lane reads from other blocks (`LaneEnv`). -/
namespace Sys2Proof.Machine

/-! ### Handing on -/

/-- The lane hands a lift a message. Place requests, passages, releases and leaves are discarded by a lift that has taken a station reset the
lane has not yet taken (R87). -/
def Lane.tell (env : LaneEnv) (x : Lane) (i : LiftNo) (m : LaneMessage) : Lane :=
  let discarded := match m with
    | .placeRequest _ | .passage _ | .release _ | .leave _ => env.discards[i]
    | .freePassage | .intrusion => false
  if discarded then x else { x with toLifts := x.toLifts.set i (x.toLifts[i] ++ [m]) }

/-- The lane hands the table port a row operation, which joins its row-operation list (R114). From the port's own reset event until the lane has
taken the same station reset, the port discards it (R8). -/
def Lane.handRowOp (x : Lane) (op : RowOp) : Lane :=
  if x.resetsPending = 0 then { x with rowOps := x.rowOps ++ [op] } else x

/-- The lane hands the trunk port a raise (R47, R59). -/
def Lane.raise (x : Lane) (r : Raise) : Lane := { x with raises := x.raises ++ [r] }

/-- The lane places a SHOW in its transmit slot, and it becomes the last signal shown (R50). -/
def Lane.show (x : Lane) (signal : Signal) (reason : ShowReason) (heads : Nat) : Lane :=
  { x with showSlot := some { signal := signal, reason := reason, heads := heads },
           lastShown := some { signal := signal, reason := reason, heads := heads } }

/-! ### The effective state (R53, R54) -/

/-- The effective state derived from the lane context (R53). -/
def Lane.derived (x : Lane) : EffectiveState :=
  if !x.presence.debounced then .detached
  else if x.actuationFail || x.stuckOpen then .faulted
  else match x.keyPosition with
  | .free => .overrideFree
  | .shut => .overrideShut
  | .normal =>
    match x.configuredMode with
    | .locked => .locked
    | .released =>
      if !x.dayOpen then .dayClosed
      else if x.servedLift.isNone then .noLift
      else .inService

/-- The signal of an effective state (R54). -/
def EffectiveState.signal : EffectiveState → Signal
  | .overrideFree => .green
  | .faulted | .overrideShut => .red
  | .detached | .locked | .dayClosed | .noLift | .inService => .dark

/-- The lane places the SHOW of its effective state (R54). -/
def Lane.showState (x : Lane) : Lane := x.show x.effective.signal (.state x.effective) 0

/-! ### The end of an admission (R115, R121) -/

/-- The admission record is removed and the closing row operation handed (R115). -/
def Lane.endAdmission (x : Lane) (a : Admission) : Lane :=
  { x with admission := none }.handRowOp (.closing a.slot a.uid)

/-- What a cancellation hands the lift, by the admission's phase (R121). -/
def Lane.giveUp (env : LaneEnv) (x : Lane) (a : Admission) : Lane :=
  match a.phase with
  | some .unlocked => x.tell env a.lift (.release a.request)
  | some .hold => x.tell env a.lift (.leave a.request)
  | none => x

/-- The admission, if one is held, ends CANCELLED; its SHOW is the caller's (R121). -/
def Lane.cancel (env : LaneEnv) (x : Lane) : Lane :=
  match x.admission with
  | none => x
  | some a => (x.giveUp env a).endAdmission a

/-- Re-derivation: a state different from the one held is taken, an admission held in IN_SERVICE is cancelled, and the SHOW of the new state is
placed (R54). -/
def Lane.rederive (env : LaneEnv) (x : Lane) : Lane :=
  if x.derived = x.effective then x
  else
    let left := if x.effective = .inService then x.cancel env else x
    { left with effective := x.derived }.showState

/-! ### Driving the turnstile (R56 to R58) -/

/-- Whether UNLOCK is to be driven: an admission in UNLOCKED phase awaits a rotation, or the lane is OVERRIDE_FREE (R56). -/
def Lane.wantsUnlock (x : Lane) : Bool :=
  (x.admission.any fun a => a.phase = some .unlocked) || decide (x.effective = .overrideFree)

/-- The drive window at the end of an event: examined when UNLOCK goes from released to driven, ended when the latch shows released or UNLOCK is
released (R57). -/
def Lane.driveWindowAfter (x : Lane) : Option Nat :=
  if !x.wantsUnlock || x.latchReleased then none
  else if x.unlock then x.driveWindow else some 250

/-- The four conditions under which the release watch runs (R58). -/
def Lane.watched (x : Lane) : Bool :=
  !x.wantsUnlock && x.presence.debounced && !x.stuckOpen && x.latchReleased

/-- The release watch at the end of an event: it starts with 250 ms when its conditions come to hold and stops when one ceases (R58). -/
def Lane.releaseWatchAfter (x : Lane) : Option Nat :=
  if x.watched then some (x.releaseWatch.getD 250) else none

/-- The end of every lane event: UNLOCK is set as R56 requires, and the two windows follow it (R57, R58). -/
def Lane.settle (x : Lane) : Lane :=
  { x with unlock := x.wantsUnlock, driveWindow := x.driveWindowAfter, releaseWatch := x.releaseWatchAfter }

/-- One event at a lane (R43). -/
def State.laneEvent (s : State) (l : LaneNo) (f : LaneEnv → Lane → Lane) : State :=
  s.setLane l (f (s.laneEnv l) (s.lane l)).settle

/-! ### Place requests (R107) -/

/-- The lane hands its admission's lift the next place request (R107). -/
def Lane.requestPlace (env : LaneEnv) (x : Lane) (a : Admission) : Lane :=
  Lane.tell env
    { x with lastRequest := x.lastRequest + 1,
             admission := some { a with request := x.lastRequest + 1, phase := none, deadline := none, holdStart := none } }
    a.lift (.placeRequest (x.lastRequest + 1))

/-- Heads total minus heads passed (R105). -/
def Admission.headsRemaining (a : Admission) : Nat := a.headsTotal - a.headsPassed

/-! ### The served lift (R73, R74) -/

/-- The cause of a served-lift change (R73). -/
inductive ServedCause where
  | closed | remapped | returned
  deriving DecidableEq, Repr

/-- The served lift derived from the mapping and the in-operation held (R73). -/
def Lane.derivedLift (x : Lane) : Option LiftNo :=
  if x.liftInOperation[x.primaryLift] then some x.primaryLift
  else match x.secondaryLift with
    | some i => if x.liftInOperation[i] then some i else none
    | none => none

/-- The reason with which a served-lift change ends the admission by itself, if it does (R74). -/
def servedLiftCancels (a : Admission) (new : Option LiftNo) (cause : ServedCause) : Option ShowReason :=
  match new, cause with
  | some i, _ => if i = a.lift then none else some .liftChanged
  | none, .closed => some .liftClosed
  | none, _ => none

/-- A derivation of the served lift, and the change when it yields another value (R73, R74). One SHOW is sent: that of the effective state when it
changes, else that of the cancellation (R74, R121). -/
def Lane.rederiveLift (env : LaneEnv) (x : Lane) (cause : ServedCause) : Lane :=
  if x.derivedLift = x.servedLift then x
  else
    let stored (y : Lane) : Lane := { y with servedLift := x.derivedLift }
    match x.admission with
    | none => (stored x).rederive env
    | some a =>
      match servedLiftCancels a x.derivedLift cause with
      | none => (stored x).rederive env
      | some reason =>
        let ended := stored (x.cancel env)
        if ended.derived = ended.effective then ended.show .red reason a.headsRemaining else ended.rederive env

/-! ### Counters (R64) -/

def Lane.count (x : Lane) (f : LaneCounters → LaneCounters) : Lane := { x with counters := f x.counters }

/-- A lane counter is raised by one and stays at 65,535 (R64). -/
def raiseCount (n : Nat) : Nat := bump 65535 n

/-! ### Taps at the lane (R88 to R91, R100, R101) -/

/-- The SHOW of a denial: signal and heads remaining (R101). -/
def Lane.showDenial (x : Lane) (r : DenyReason) : Lane :=
  match r with
  | .blocked => x.show .seeOffice (.denied r) 0
  | .laneBusy => x.show .red (.denied r) ((x.admission.map Admission.headsRemaining).getD 0)
  | .laneLocked => x.show (if x.effective = .overrideFree then .green else .red) (.denied r) 0
  | _ => x.show .red (.denied r) 0

/-- A tap is denied: counted and shown in the same event (R100, R101). -/
def Lane.deny (x : Lane) (r : DenyReason) : Lane :=
  (x.count fun c => { c with taps := raiseCount c.taps,
                             denials := c.denials.set r.index (raiseCount c.denials[r.index]) }).showDenial r

/-- The deny reason of each effective state other than IN_SERVICE, absent for DETACHED, where a tap is ignored (R89). -/
def EffectiveState.denial : EffectiveState → Option DenyReason
  | .detached | .inService => none
  | .faulted => some .laneFault
  | .overrideFree | .locked => some .laneLocked
  | .overrideShut => some .laneShut
  | .dayClosed => some .dayClosed
  | .noLift => some .noLift

/-- The lane takes a tap (R89, R90, R91). -/
def Lane.takeTap (x : Lane) (uid : Uid) : Lane :=
  match x.effective with
  | .detached => x
  | .inService =>
    (match x.admission with
    | none => { x with validationInFlight := true }.handRowOp (.validate uid)
    | some a => if a.uid = uid then x else x.deny .laneBusy)
  | .faulted => x.deny .laneFault
  | .overrideFree => x.deny .laneLocked
  | .overrideShut => x.deny .laneShut
  | .locked => x.deny .laneLocked
  | .dayClosed => x.deny .dayClosed
  | .noLift => x.deny .noLift

/-- A TAP reaches tap handling: taken at once, or placed in the waiting slot while a validation is in flight, where it replaces an older one (R88). -/
def Lane.tapArrives (x : Lane) (uid : Uid) : Lane :=
  if x.validationInFlight then { x with waitingTap := some uid } else x.takeTap uid

/-- The lane has taken the decision on the tap in flight: the flag is cleared, and a waiting tap is emptied from its slot, to be taken in a following
event (R88). -/
def Lane.decisionTaken (x : Lane) : Lane :=
  { x with validationInFlight := false, waitingTap := none, emptiedTaps := x.emptiedTaps ++ x.waitingTap.toList }

/-! ### Rotations (R61, R111, R123, R124) -/

/-- The record of a rotation without an admission (R123, R124). -/
def rotationRecord (kind : RecordKind) (l : LaneNo) (lift : Option LiftNo) (stamp : Stamp) : RecordBody :=
  { kind := kind, second := stamp.second, day := stamp.day, lane := some l, lift := lift, uid := none, headIndex := none,
    newDay := none, amountPerHead := none, headcount := none, unusedDays := none }

def Lane.handRecord (x : Lane) (r : RecordBody) : Lane := { x with records := x.records ++ [r] }

/-- What the lane hands its served lift, if it has one (R61). -/
def Lane.tellServed (env : LaneEnv) (x : Lane) (m : LaneMessage) : Lane :=
  match x.servedLift with
  | some i => x.tell env i m
  | none => x

/-- A passage of the next head (R111); the last head ends the admission COMPLETE (R116). -/
def Lane.headPasses (env : LaneEnv) (x : Lane) (a : Admission) : Lane :=
  let passed := { a with headsPassed := a.headsPassed + 1 }
  let handed := (x.tell env a.lift (.passage a.request)).handRowOp (.passage a.slot a.uid passed.headsPassed a.lift env.stamp)
  if passed.headsPassed < a.headsTotal then handed.requestPlace env passed
  else (handed.endAdmission passed).show .dark .complete 0

/-- A FREE passage (R123). -/
def Lane.freePassage (env : LaneEnv) (l : LaneNo) (x : Lane) : Lane :=
  ((x.count fun c => { c with freePassages := raiseCount c.freePassages }).tellServed env .freePassage).handRecord
    (rotationRecord .free l x.servedLift env.stamp)

/-- An intrusion (R124); the admission is untouched. -/
def Lane.intrusion (env : LaneEnv) (l : LaneNo) (x : Lane) : Lane :=
  ((x.count fun c => { c with intrusions := raiseCount c.intrusions }).tellServed env .intrusion).handRecord
    (rotationRecord .intrusion l x.servedLift env.stamp)

/-- A rotation the lane takes (R61); on a DETACHED lane it is ignored (R47). -/
def Lane.rotates (env : LaneEnv) (l : LaneNo) (x : Lane) : Lane :=
  if x.effective = .detached then x
  else match x.admission with
  | some a =>
    if a.phase = some .unlocked then x.headPasses env a
    else if x.effective = .overrideFree then x.freePassage env l
    else x.intrusion env l
  | none => if x.effective = .overrideFree then x.freePassage env l else x.intrusion env l

/-! ### Attach, detach, faults, resets -/

/-- Detach (R47, R88). -/
def Lane.detach (env : LaneEnv) (l : LaneNo) (x : Lane) : Lane :=
  (Lane.rederive env
    { x with actuationFail := false, stuckOpen := false, keyPosition := .normal, driveWindow := none, releaseWatch := none,
             waitingTap := none }).raise { condition := .laneDetached, detail := .lane l }

/-- A fault latch, just set, is acted on: re-derivation, and a raise of LANE_FAULT (R59). -/
def Lane.latched (env : LaneEnv) (l : LaneNo) (x : Lane) : Lane :=
  (x.rederive env).raise { condition := .laneFault, detail := .lane l }

/-- Whether LANE_FAULT_CLEAR clears a latch here (R60). -/
def Lane.clearsFault (x : Lane) : Bool := x.actuationFail || (x.stuckOpen && !x.latchReleased)

/-- LANE_FAULT_CLEAR at the lane: ACTUATION_FAIL is cleared, STUCK_OPEN is cleared if LATCH_SENSE shows held (R60). -/
def Lane.clearFaults (env : LaneEnv) (x : Lane) : Lane :=
  if x.clearsFault then Lane.rederive env { x with actuationFail := false, stuckOpen := x.stuckOpen && x.latchReleased }
  else x

/-- Whether the lane still holds a latch after LANE_FAULT_CLEAR (R60). -/
def Lane.keepsFault (x : Lane) : Bool := x.stuckOpen && x.latchReleased

/-- The lane takes a station reset (R66, R104, R125): its SHOW is placed whether or not the state differs. Nothing is
discarded at the lifts, which do that in their own reset (R87, R125; log entry 51). -/
def Lane.stationReset (x : Lane) : Lane :=
  let cleared : Lane :=
    { x with admission := none, configuredMode := .locked, unlock := false, driveWindow := none, releaseWatch := none,
             validationInFlight := false, waitingTap := none, rowOps := [], lastRequest := 0,
             resetsPending := x.resetsPending - 1 }
  { cleared with effective := cleared.derived }.showState

/-- One millisecond at the lane's timers. -/
def Lane.tick (x : Lane) : Lane :=
  { x with presence := { x.presence with remaining := countDown x.presence.remaining },
           rotationLine := x.rotationLine.tick, driveWindow := countDown x.driveWindow,
           releaseWatch := countDown x.releaseWatch }

end Sys2Proof.Machine
end

