-- ==== Sys2Proof/Machine/Admissions.lean ====
section
/-! DEFINITION. Admissions and passages: the lift's answers, the passage row operations, and the ends of an admission (chapter 6). -/
namespace Sys2Proof.Machine

/-! ### Passage row operations (R112, R113, R115) -/

/-- The row after the passage commit of a stamp day, with its day-consumed flag (R112). -/
def commitDay (p : Product) (row : PassRow) (d : Nat) : PassRow × Bool :=
  match p.kind with
  | .multiDay =>
    if row.consumed.contains d then (row, false)
    else if row.consumed.length < p.dayCount then ({ row with consumed := insertDay d row.consumed }, true)
    else (row, false)
  | .season =>
    if row.lastCountedDay.all fun c => decide (c < d) then
      ({ row with seasonDays := min 240 (row.seasonDays + 1), lastCountedDay := some d }, true)
    else (row, false)

/-- The row after the passage commit, with its day-consumed flag: the day, then the last passage (R112). DESIGN CHOICE: a stamp without a day, which R111
rules out and no run reaches, leaves the row and consumes no day (log entry 50). -/
def commitRow (p : Product) (row : PassRow) (lift : LiftNo) (stamp : Stamp) : PassRow × Bool :=
  match stamp.day with
  | none => (row, false)
  | some d =>
    let (counted, consumed) := commitDay p row d
    ({ counted with lastPassage := some { lift := lift, day := d, second := stamp.second } }, consumed)

/-- The PASSAGE record of a head (R112, R113, R127). -/
def passageRecord (l : LaneNo) (lift : LiftNo) (uid : Uid) (head : Nat) (stamp : Stamp) (newDay : Bool) : RecordBody :=
  { kind := .passage, second := stamp.second, day := stamp.day, lane := some l, lift := some lift, uid := some uid,
    headIndex := some head, newDay := some newDay, amountPerHead := none, headcount := none, unusedDays := none }

/-- The row operation hands the journal a PASSAGE record (R126). -/
def State.handPassage (s : State) (r : RecordBody) : State :=
  { s with table := { s.table with records := s.table.records ++ [r] } }

/-- The row a row operation names by slot and UID, while the slot carries that UID (R113, R114). -/
def State.rowOf (s : State) (slot : Nat) (uid : Uid) : Option PassRow :=
  match slotAt s.table.slots slot with
  | some row => if row.uid = uid then some row else none
  | none => none

/-- The passage commit on the row at its slot (R112). -/
def State.commit (s : State) (l : LaneNo) (slot : Nat) (uid : Uid) (lift : LiftNo) (stamp : Stamp) : State :=
  match s.rowOf slot uid with
  | none => s
  | some row =>
    (s.writeRow slot (commitRow (s.product row.product) row lift stamp).1).handPassage
      (passageRecord l lift uid 1 stamp (commitRow (s.product row.product) row lift stamp).2)

/-- PASSAGE_COMMIT: the passage row operation of head 1 (R112). -/
def execPassageCommit (l : LaneNo) (s : State) : Result :=
  match s.takeRowOp l with
  | some (.passage slot uid head lift stamp, s') => if head = 1 then .next (s'.commit l slot uid lift stamp) else .next s
  | _ => .next s

/-- The row operation of a later head: the row is confirmed and the record handed (R113). -/
def State.recordHead (s : State) (l : LaneNo) (slot : Nat) (uid : Uid) (head : Nat) (lift : LiftNo) (stamp : Stamp) : State :=
  match s.rowOf slot uid with
  | none => s
  | some _ => s.handPassage (passageRecord l lift uid head stamp false)

/-- HEAD_RECORD: the passage row operation of each head after the first (R113). -/
def execHeadRecord (l : LaneNo) (s : State) : Result :=
  match s.takeRowOp l with
  | some (.passage slot uid head lift stamp, s') =>
    if head = 1 then .next s else .next (s'.recordHead l slot uid head lift stamp)
  | _ => .next s

/-- The closing row operation: the row's pending lane is cleared if it still names this lane (R115). -/
def State.closeRow (s : State) (l : LaneNo) (slot : Nat) (uid : Uid) : State :=
  match s.rowOf slot uid with
  | none => s
  | some row => if row.pendingLane = some l then s.writeRow slot { row with pendingLane := none } else s

/-- CLOSING_ROW_OPERATION (R115). -/
def execClosingRowOperation (l : LaneNo) (s : State) : Result :=
  match s.takeRowOp l with
  | some (.closing slot uid, s') => .next (s'.closeRow l slot uid)
  | _ => .next s

/-! ### The lift's answers (R107 to R110) -/

/-- Whether an answer of lift `i` to request `n` is current: the lane holds an admission for that lift whose request number is `n` (R82, R107). -/
def Admission.awaits (a : Admission) (i : LiftNo) (n : RequestNo) : Bool := decide (a.lift = i) && decide (a.request = n)

/-- The admission as a current place leaves it (R108). -/
def Admission.unlocked (a : Admission) (now : Reading) (ms : Nat) : Admission :=
  { a with phase := some .unlocked, holdStart := none, deadline := some { setAt := now, duration := ms } }

/-- The admission as a current hold leaves it (R109). -/
def Admission.held (a : Admission) (now : Reading) (ms : Nat) : Admission :=
  { a with phase := some .hold, holdStart := some now, deadline := some { setAt := now, duration := ms } }

/-- A current place: the admission becomes UNLOCKED and GREEN is shown (R108). -/
def Lane.unlockFor (env : LaneEnv) (x : Lane) (a : Admission) : Lane :=
  Lane.show { x with admission := some (a.unlocked env.now (1000 * x.passageWindow)) } .green (.state .inService)
    a.headsRemaining

/-- The lane takes a place: a current one unlocks, a stale one goes back as a release (R82, R108). DESIGN CHOICE: so does a current one
that finds the admission UNLOCKED, which R82 calls stale and R108 says cannot be (log entry 52). -/
def Lane.takePlace (env : LaneEnv) (i : LiftNo) (n : RequestNo) (x : Lane) : Lane :=
  match x.admission with
  | some a => if a.awaits i n ∧ a.phase ≠ some .unlocked then x.unlockFor env a else x.tell env i (.release n)
  | none => x.tell env i (.release n)

/-- A current hold: the admission becomes HOLD and AMBER is shown (R109). -/
def Lane.holdFor (env : LaneEnv) (x : Lane) (a : Admission) : Lane :=
  Lane.show { x with admission := some (a.held env.now (1000 * x.holdTimeout)) } .amber (.state .inService) a.headsRemaining

/-- The lane takes a hold: a current one is HOLD, a stale one is answered with a leave (R109). DESIGN CHOICE: so is a current one that
finds the admission in a phase already, where R109 gives no effect (log entry 52). -/
def Lane.takeHold (env : LaneEnv) (i : LiftNo) (n : RequestNo) (x : Lane) : Lane :=
  match x.admission with
  | some a => if a.awaits i n ∧ a.phase = none then x.holdFor env a else x.tell env i (.leave n)
  | none => x.tell env i (.leave n)

/-- The lane takes a refusal: a current one cancels the admission with LIFT_CLOSED, a stale one is discarded (R110, R121).
DESIGN CHOICE: an admission found in a phase ends by it, with its release or leave, where R110 takes it that nothing was reserved or queued (log entry 52). -/
def Lane.takeRefusal (env : LaneEnv) (i : LiftNo) (n : RequestNo) (x : Lane) : Lane :=
  match x.admission with
  | some a => if a.awaits i n then (x.cancel env).show .red .liftClosed a.headsRemaining else x
  | none => x

/-- The oldest answer of a lift to a lane leaves the lift. -/
def State.dropAnswer (s : State) (l : LaneNo) (i : LiftNo) : State :=
  s.setLift i { s.lift i with answers := (s.lift i).answers.set l (s.lift i).answers[l].tail }

/-- PLACE (R108). -/
def execPlace (l : LaneNo) (i : LiftNo) (s : State) : Result :=
  match (s.lift i).answers[l].head? with
  | some (.place n) => .next ((s.dropAnswer l i).laneEvent l fun env x => x.takePlace env i n)
  | _ => .next s

/-- HOLD (R109). -/
def execHold (l : LaneNo) (i : LiftNo) (s : State) : Result :=
  match (s.lift i).answers[l].head? with
  | some (.hold n) => .next ((s.dropAnswer l i).laneEvent l fun env x => x.takeHold env i n)
  | _ => .next s

/-- REFUSAL (R110). -/
def execRefusal (l : LaneNo) (i : LiftNo) (s : State) : Result :=
  match (s.lift i).answers[l].head? with
  | some (.refusal n) => .next ((s.dropAnswer l i).laneEvent l fun env x => x.takeRefusal env i n)
  | _ => .next s

/-! ### Deadlines and cancellation -/

/-- Whether the lane's admission stands in a phase whose deadline has expired (R117). -/
def Lane.deadlineDue (x : Lane) (phase : Phase) (now : Reading) : Bool :=
  x.admission.any fun a => decide (a.phase = some phase) && a.deadline.any fun d => d.expired now

/-- The passage window of the current head has expired: the admission ends BALKED or PARTIAL (R118). -/
def Lane.windowExpires (env : LaneEnv) (x : Lane) (a : Admission) : Lane :=
  let ended := (x.tell env a.lift (.release a.request)).endAdmission a
  if a.headsPassed = 0 then
    (ended.count fun c => { c with balks := raiseCount c.balks }).show .red .balked a.headsRemaining
  else (ended.count fun c => { c with partials := raiseCount c.partials }).show .red .partlyPassed a.headsRemaining

/-- PASSAGE_WINDOW_EXPIRY (R118). -/
def execPassageWindowExpiry (l : LaneNo) (s : State) : Result :=
  if (s.lane l).deadlineDue .unlocked s.timebase then
    .next (s.laneEvent l fun env x =>
      match x.admission with
      | some a => x.windowExpires env a
      | none => x)
  else .next s

/-- The hold deadline has expired: a leave is handed and the admission ends HOLD_EXPIRED (R119). -/
def Lane.holdExpires (env : LaneEnv) (x : Lane) (a : Admission) : Lane :=
  (((x.tell env a.lift (.leave a.request)).endAdmission a).count fun c =>
    { c with holdExpiries := raiseCount c.holdExpiries }).show .red .holdExpired a.headsRemaining

/-- HOLD_TIMEOUT_EXPIRY (R119). -/
def execHoldTimeoutExpiry (l : LaneNo) (s : State) : Result :=
  if (s.lane l).deadlineDue .hold s.timebase then
    .next (s.laneEvent l fun env x =>
      match x.admission with
      | some a => x.holdExpires env a
      | none => x)
  else .next s

/-- The lane takes a PASS_STATUS cancellation: its admission is cancelled if it is for the named UID (R12, R121). -/
def Lane.takeCancellation (env : LaneEnv) (uid : Uid) (x : Lane) : Lane :=
  match x.admission with
  | some a => if a.uid = uid then (x.cancel env).show .seeOffice .passStatus 0 else x
  | none => x

/-- PASS_STATUS_CANCELLATION (R12). -/
def execPassStatusCancellation (l : LaneNo) (s : State) : Result :=
  match s.table.cancellations[l] with
  | [] => .next s
  | uid :: rest =>
    .next ({ s with table := { s.table with cancellations := s.table.cancellations.set l rest } }.laneEvent l
      fun env x => x.takeCancellation env uid)

end Sys2Proof.Machine
end

