-- ==== Sys2Proof/Machine/Calendar.lean ====
section
/-! DEFINITION. The season calendar and the day clock (chapter 2). -/
namespace Sys2Proof.Machine

/-! ### Day records and the credit percent -/

/-- The record of a day 0 to 239 (R27). -/
def Calendar.day (c : Calendar) (d : Nat) : DayRecord := (c.days[d]?).getD DayRecord.powerOn

def Calendar.setDay (c : Calendar) (d : Nat) (r : DayRecord) : Calendar := { c with days := c.days.setIfInBounds d r }

/-- The day state is OPEN (R28). -/
def Calendar.isOpen (c : Calendar) : Bool :=
  match c.currentDay with
  | some d => decide ((c.day d).state = .opened)
  | none => false

/-- The number of lifts enabled, 0 to 4 (R37). -/
def State.enabledLifts (s : State) : Nat := liftNumbers.countP fun i => (s.lift i).enabled

/-- The number of lifts enabled and CLOSED_WEATHER, 0 to 4 (R35). -/
def State.weatherClosedLifts (s : State) : Nat :=
  liftNumbers.countP fun i => (s.lift i).enabled && decide ((s.lift i).state = .closedWeather)

/-- The credit percent worked out from the record and the lifts as they stand (R37). -/
def computedCredit (r : DayRecord) (enabledLifts threshold : Nat) : Nat :=
  let operating := r.operatingMinutes * enabledLifts
  if threshold ≤ r.closedLiftMinutes ∧ 0 < operating then min 100 (100 * r.closedLiftMinutes / operating) else 0

/-- The credit percent of a day as it is read: live when COMPUTED, stored when FROZEN or SET (R37, R38). -/
def State.creditPercent (s : State) (d : Nat) : Nat :=
  let r := s.calendar.day d
  match r.source with
  | .computed => computedCredit r s.enabledLifts s.calendar.closureThreshold
  | .frozen | .set => r.creditPercent

/-! ### Opening and closing a day -/

/-- A DAY_OPEN is taken: the day becomes the current day and OPEN, and its three effects are handed on (R31, R32). -/
def Calendar.openDay (c : Calendar) (n : Nat) : Calendar :=
  { c.setDay n { c.day n with state := .opened } with
    currentDay := some n
    toLanes := c.toLanes.map (· ++ [DayChange.opened])
    toJournal := c.toJournal + 1
    toProductTable := c.toProductTable + 1 }

/-- DAY_OPEN: the checks of R31 in order, and its effect. -/
def execDayOpen (s : State) : Result :=
  match s.takeRequest .calendar .dayOpen with
  | none => .next s
  | some (r, s) =>
    let n := field r.body 0 1
    if 239 < n then .next (s.answer r.place .range [])
    else if s.calendar.isOpen then .next (s.answer r.place .wrongState [])
    else if s.calendar.currentDay.any (fun d => decide (n ≤ d)) then .next (s.answer r.place .dayOrder [])
    else .next ({ s with calendar := s.calendar.openDay n }.answer r.place .ok [])

/-- The record of a day as DAY_CLOSE leaves it, given the credit worked out at that event (R33, R38). -/
def DayRecord.closed (r : DayRecord) (credit : Nat) : DayRecord :=
  match r.source with
  | .computed => { r with creditPercent := credit, source := .frozen, state := .closed }
  | .frozen | .set => { r with state := .closed }

/-- A DAY_CLOSE of day `d` is taken with the credit worked out at that event, and the change of day state is handed to every lane (R33, R34). -/
def Calendar.closeDay (c : Calendar) (d credit : Nat) : Calendar :=
  { c.setDay d ((c.day d).closed credit) with toLanes := c.toLanes.map (· ++ [DayChange.closed]) }

/-- DAY_CLOSE (R33, R34). -/
def execDayClose (s : State) : Result :=
  match s.takeRequest .calendar .dayClose with
  | none => .next s
  | some (r, s) =>
    match s.calendar.currentDay with
    | none => .next (s.answer r.place .wrongState [])
    | some d =>
      if s.calendar.isOpen then
        .next ({ s with calendar := s.calendar.closeDay d (s.creditPercent d) }.answer r.place .ok [])
      else .next (s.answer r.place .wrongState [])

/-! ### The day clock -/

/-- TIME: the second of day takes the value given, and the sub-second phase restarts (R30). -/
def execTime (s : State) : Result :=
  match s.takeRequest .calendar .time with
  | none => .next s
  | some (r, s) =>
    let second := field r.body 0 4
    if 86399 < second then .next (s.answer r.place .range [])
    else
      .next ({ s with calendar := { s.calendar with secondOfDay := second, subSecondPhase := 0 } }.answer r.place .ok [])

/-- The record of the OPEN current day with `n` more closed lift-minutes, up to 5,760 (R35). -/
def DayRecord.gather (r : DayRecord) (n : Nat) : DayRecord :=
  { r with closedLiftMinutes := min 5760 (r.closedLiftMinutes + n) }

/-- Closure is gathered: the lifts enabled and CLOSED_WEATHER are added to the current day's closed lift-minutes, up to 5,760 (R35). -/
def State.gatherClosure (s : State) : State :=
  match s.calendar.currentDay with
  | none => s
  | some d =>
    if (s.calendar.day d).state = .opened then
      { s with calendar := s.calendar.setDay d ((s.calendar.day d).gather s.weatherClosedLifts) }
    else s

/-- The second of day one completed second later; from 86,399 it goes to 0 (R29). -/
def nextSecond (second : Nat) : Nat := if second < 86399 then second + 1 else 0

/-- The cycles of the 32.768 kHz crystal in a second. DEDUCED from section 2.3 (log entry 4). -/
def cyclesPerSecond : Nat := 32768

/-- The crystal has completed a second that the clock has not yet counted (R29, R30). -/
def Calendar.secondDone (c : Calendar) : Bool := decide (cyclesPerSecond ≤ c.subSecondPhase)

/-- The clock counts a completed second; the cycles beyond it belong to the next (R29). -/
def Calendar.count (c : Calendar) : Calendar :=
  { c with secondOfDay := nextSecond c.secondOfDay, subSecondPhase := c.subSecondPhase - cyclesPerSecond }

/-- COUNT_ADVANCE: the second of day advances by one completed second of the crystal (R29), so a second that TIME has written lasts one full second (R30, R41);
an advance onto a multiple of 60 gathers closure (R35). -/
def execCountAdvance (s : State) : Result :=
  if !s.calendar.secondDone then .next s
  else if nextSecond s.calendar.secondOfDay % 60 = 0 then .next (State.gatherClosure { s with calendar := s.calendar.count })
  else .next { s with calendar := s.calendar.count }

/-! ### Writing and reading the calendar -/

/-- The record CALENDAR_PUT writes, its values clamped (R39). -/
def DayRecord.put (r : DayRecord) (dayClass : DayClass) (f : CalendarForm) : DayRecord :=
  let written := { r with dayClass := dayClass, operatingMinutes := min 1440 f.operatingMinutes }
  match f.credit.get with
  | some percent => { written with creditPercent := min 100 percent, source := .set }
  | none => written

/-- Whether CALENDAR_PUT clamps a value (R39). -/
def CalendarForm.clamps (f : CalendarForm) : Bool :=
  decide (1440 < f.operatingMinutes) || f.credit.get.any fun percent => decide (100 < percent)

/-- CALENDAR_PUT (R39). DESIGN CHOICE: RANGE is checked before BAD_FIELD, whose order R39 does not state (log entry 42). -/
def execCalendarPut (s : State) : Result :=
  match s.takeRequest .calendar .calendarPut with
  | none => .next s
  | some (r, s) =>
    let f := calendarForm r.body
    if 239 < f.day then .next (s.answer r.place .range [])
    else match dayClassOf f.classCode with
    | none => .next (s.answer r.place .badField [])
    | some dayClass =>
      if !isFlag f.credit.presence then .next (s.answer r.place .badField [])
      else
        .next ({ s with calendar := s.calendar.setDay f.day ((s.calendar.day f.day).put dayClass f) }.answer r.place
          (if f.clamps then .okClamped else .ok) [])

/-- CALENDAR_READ (R40). -/
def execCalendarRead (s : State) : Result :=
  match s.takeRequest .calendar .calendarRead with
  | none => .next s
  | some (r, s) =>
    let d := field r.body 0 1
    if 239 < d then .next (s.answer r.place .range [])
    else
      .next (s.answer r.place .ok
        (calendarBytes (s.calendar.day d) (s.creditPercent d) (decide (s.calendar.currentDay = some d))))

/-! ### The effects handed to the lanes and the journal -/

/-- The change of day state a lane takes next leaves the calendar. -/
def State.dropDayChange (s : State) (l : LaneNo) : State :=
  { s with calendar := { s.calendar with toLanes := s.calendar.toLanes.set l (s.calendar.toLanes[l].tail) } }

/-- LANE_DAY_OPEN: a lane takes a DAY_OPEN; its counters are zeroed and its effective state re-derived (R32). -/
def execLaneDayOpen (l : LaneNo) (s : State) : Result :=
  if s.calendar.toLanes[l].head? = some .opened then
    .next ((s.dropDayChange l).laneEvent l fun env x =>
      Lane.rederive env { x with counters := LaneCounters.zero, dayOpen := true })
  else .next s

/-- LANE_DAY_CLOSE: a lane takes a DAY_CLOSE and re-derives its effective state (R34). -/
def execLaneDayClose (l : LaneNo) (s : State) : Result :=
  if s.calendar.toLanes[l].head? = some .closed then
    .next ((s.dropDayChange l).laneEvent l fun env x => Lane.rederive env { x with dayOpen := false })
  else .next s

/-- JOURNAL_DAY_OPEN: the journal takes a DAY_OPEN; all bins and all five overflow counters become 0 (R32, R132). -/
def execJournalDayOpen (s : State) : Result :=
  if s.calendar.toJournal = 0 then .next s
  else
    .next { s with
      calendar := { s.calendar with toJournal := s.calendar.toJournal - 1 }
      journal := { s.journal with bins := Vector.replicate 4 (Vector.replicate 24 0),
                                  liftOverflow := Vector.replicate 4 0, stationOverflow := 0 } }

end Sys2Proof.Machine
end

