-- ==== Sys2Proof/Machine/Lanes.lean ====
section
/-! DEFINITION. The gate lanes: lines, windows, link, key, configured mode, faults, mapping and LANE_READ (chapter 3). -/
namespace Sys2Proof.Machine

/-! ### Requests taken by a lane -/

/-- A lane takes a configured mode; one it already has is unchanged (R52). -/
def Lane.setMode (env : LaneEnv) (mode : ConfiguredMode) (x : Lane) : Lane :=
  if x.configuredMode = mode then x else Lane.rederive env { x with configuredMode := mode }

/-- A lane takes the next LANE_RELEASE or LANE_LOCK handed to it; the reply comes when every named lane has taken it (R52). -/
def State.takeMode (s : State) (l : LaneNo) (kind : RequestKind) (mode : ConfiguredMode) : State :=
  match s.takeRequest (.lane l) kind with
  | none => s
  | some (r, s) =>
    (s.laneEvent l fun env x => x.setMode env mode).jointAnswer r.place (decide ((s.lane l).configuredMode ≠ mode)) false id

/-- LANE_RELEASE at one of the lanes it names (R52). -/
def execLaneRelease (l : LaneNo) (s : State) : Result := .next (s.takeMode l .laneRelease .released)

/-- LANE_LOCK at one of the lanes it names (R52). -/
def execLaneLock (l : LaneNo) (s : State) : Result := .next (s.takeMode l .laneLock .locked)

/-- LANE_FAULT_CLEAR at one of the lanes it names (R60). -/
def execLaneFaultClear (l : LaneNo) (s : State) : Result :=
  match s.takeRequest (.lane l) .laneFaultClear with
  | none => .next s
  | some (r, s) =>
    .next ((s.laneEvent l fun env x => x.clearFaults env).jointAnswer r.place (s.lane l).clearsFault (s.lane l).keepsFault id)

/-- Check 2 of R63: the mapping a LANE_CONFIG carries, when legal. -/
def LaneForm.mapping (f : LaneForm) : Option (LiftNo × Option LiftNo) :=
  if h : f.primary < 4 then
    if !isFlag f.secondary.presence then none
    else match f.secondary.get with
    | none => some (⟨f.primary, h⟩, none)
    | some v => if h' : v < 4 then (if v = f.primary then none else some (⟨f.primary, h⟩, some ⟨v, h'⟩)) else none
  else none

/-- A lane takes a new mapping and re-derives its served lift (R63, R73). -/
def Lane.remap (env : LaneEnv) (primary : LiftNo) (secondary : Option LiftNo) (x : Lane) : Lane :=
  Lane.rederiveLift env { x with primaryLift := primary, secondaryLift := secondary } .remapped

/-- LANE_CONFIG (R63). -/
def execLaneConfig (l : LaneNo) (s : State) : Result :=
  match s.takeRequest (.lane l) .laneConfig with
  | none => .next s
  | some (r, s) =>
    match (laneForm r.body).mapping with
    | none => .next (s.answer r.place .badField [])
    | some (primary, secondary) =>
      if (s.lane l).primaryLift = primary ∧ (s.lane l).secondaryLift = secondary then .next (s.answer r.place .okNoChange [])
      else .next ((s.laneEvent l fun env x => x.remap env primary secondary).answer r.place .ok [])

/-- LANE_READ: the lane as it stands when it takes the request; nothing is written (R65). -/
def execLaneRead (l : LaneNo) (s : State) : Result :=
  match s.takeRequest (.lane l) .laneRead with
  | none => .next s
  | some (r, s) => .next (s.answer r.place .ok (laneBytes (s.lane l)))

/-! ### Lines and windows -/

/-- PRESENT_LINE_CHANGE (R46). -/
def execPresentLineChange (l : LaneNo) (present : Bool) (s : State) : Result :=
  .next (s.setLane l { s.lane l with presence := (s.lane l).presence.lineTakes present 500 })

/-- PRESENCE_DEBOUNCE_EXPIRY: the presence changes, an attach or a detach (R46, R47, R48). -/
def execPresenceDebounceExpiry (l : LaneNo) (s : State) : Result :=
  if (s.lane l).presence.isDue then
    .next (s.laneEvent l fun env x =>
      let changed := { x with presence := x.presence.settled }
      if changed.presence.debounced then changed.rederive env else changed.detach env l)
  else .next s

/-- LATCH_SENSE_CHANGE: it may satisfy the drive window, and start or stop the release watch (R57, R58). A level the line already has is no change. -/
def execLatchSenseChange (l : LaneNo) (released : Bool) (s : State) : Result :=
  if released = (s.lane l).latchReleased then .next s
  else .next (s.laneEvent l fun _ x => { x with latchReleased := released })

/-- DRIVE_WINDOW_EXPIRY: the latch still held and UNLOCK still driven, ACTUATION_FAIL is latched (R57, R59). -/
def execDriveWindowExpiry (l : LaneNo) (s : State) : Result :=
  if decide ((s.lane l).driveWindow = some 0) && (s.lane l).unlock && !(s.lane l).latchReleased then
    .next (s.laneEvent l fun env x => Lane.latched env l { x with driveWindow := none, actuationFail := true })
  else .next s

/-- RELEASE_WATCH_EXPIRY: all four conditions still hold, STUCK_OPEN is latched (R58, R59). -/
def execReleaseWatchExpiry (l : LaneNo) (s : State) : Result :=
  if decide ((s.lane l).releaseWatch = some 0) && (s.lane l).watched then
    .next (s.laneEvent l fun env x => Lane.latched env l { x with releaseWatch := none, stuckOpen := true })
  else .next s

/-- ROTATION: the line takes a level, and a rotation is taken when it becomes active after 20 ms of inactivity (R45, R61). -/
def execRotation (l : LaneNo) (active : Bool) (s : State) : Result :=
  let x := s.lane l
  let moved := s.setLane l { x with rotationLine := x.rotationLine.takes active }
  if x.rotationLine.counts active then .next (moved.laneEvent l fun env y => y.rotates env l)
  else .next moved

/-! ### The lane link -/

/-- What a lane frame is to a lane: absent when it is ignored because the lane is DETACHED (R47); bad when the lane was sending, for it is then received
damaged (R50), or when it fails the checks of R49. -/
def Lane.hears (x : Lane) (frame : List Byte) : Option LaneFrame :=
  if !x.presence.debounced then none
  else if x.sending.isSome then some .bad
  else some (parseLaneFrame frame)

/-- A frame is dropped: the lane-link error counter goes up by one (R49). -/
def State.dropFrame (s : State) (l : LaneNo) : State :=
  s.setLane l { s.lane l with linkErrors := bump 65535 (s.lane l).linkErrors }

/-- KEY: the key position is set, and the effective state re-derived if it changed (R51). -/
def Lane.turnKey (env : LaneEnv) (position : KeyPosition) (x : Lane) : Lane :=
  if x.keyPosition = position then x else Lane.rederive env { x with keyPosition := position }

/-- KEY (R49, R51). -/
def execKey (l : LaneNo) (frame : List Byte) (s : State) : Result :=
  match (s.lane l).hears frame with
  | some (.key position) => .next (s.laneEvent l fun env x => x.turnKey env position)
  | some .bad => .next (s.dropFrame l)
  | some (.tap _) | none => .next s

/-- LANE_FRAME_DROP (R49). -/
def execLaneFrameDrop (l : LaneNo) (frame : List Byte) (s : State) : Result :=
  match (s.lane l).hears frame with
  | some .bad => .next (s.dropFrame l)
  | some (.tap _) | some (.key _) | none => .next s

/-- SHOW_SEND: the SHOW in the slot begins to be sent, as the bytes of its frame, while none is being sent and no frame is being received (R50, R198). -/
def execShowSend (l : LaneNo) (receiving : Bool) (s : State) : Result :=
  let x := s.lane l
  if receiving || x.sending.isSome || x.showSlot.isNone then .next s
  else .next (s.setLane l { x with showSlot := none, sending := x.showSlot.map showFrame })

/-- SHOW_SENT: the sending of a SHOW ends (R50). -/
def execShowSent (l : LaneNo) (s : State) : Result :=
  .next (s.setLane l { s.lane l with sending := none })

end Sys2Proof.Machine
end

