-- ==== Sys2Proof/Machine/Lifts.lean ====
section
/-! DEFINITION. The lift monitors: place requests, corral room, carrier pulses, lines, LIFT_CONFIG and LIFT_READ, and the served lift (chapter 4). -/
namespace Sys2Proof.Machine

/-! ### Corral room -/

/-- The reserved places of the lift (R78). -/
def Lift.reserved (x : Lift) : Nat := x.reservations.length

/-- Whether a place may be handed: pacing off, or occupancy plus reserved places below the corral limit (R78, R81). -/
def Lift.hasRoom (x : Lift) : Bool := decide (x.corralLimit = 0) || decide (x.occupancy + x.reserved < x.corralLimit)

/-- The lift hands a lane an answer to a place request (R79). -/
def Lift.tell (x : Lift) (l : LaneNo) (m : LiftAnswer) : Lift := { x with answers := x.answers.set l (x.answers[l] ++ [m]) }

/-- A reservation entry is added and a place handed (R79, R81). DESIGN CHOICE: also beside an entry the lane may still have, without a bound, where R78 claims one
for each lane and no event rule refuses a second (log entry 44). -/
def Lift.givePlace (x : Lift) (l : LaneNo) (n : RequestNo) : Lift :=
  Lift.tell { x with reservations := x.reservations ++ [{ lane := l, request := n }] } l (.place n)

/-- The held requests given their places from the head, while there is room (R81). -/
def Lift.serve (x : Lift) : List HoldEntry → Lift
  | [] => { x with holdQueue := [] }
  | e :: rest => if x.hasRoom then (x.givePlace e.lane e.request).serve rest else { x with holdQueue := e :: rest }

/-- The room arbiter; it runs only while the lift is in operation (R81). -/
def Lift.arbiter (x : Lift) : Lift := if x.inOperation then x.serve x.holdQueue else x

/-- A place request: refused, given a place at once, or queued (R79, R80). DESIGN CHOICE: also beside an entry the lane may still have in the queue, without a bound
(log entry 44). -/
def Lift.takeRequest (x : Lift) (now : Reading) (l : LaneNo) (n : RequestNo) : Lift :=
  if !x.inOperation then x.tell l (.refusal n)
  else if decide (x.corralLimit = 0) || (x.holdQueue.isEmpty && x.hasRoom) then x.givePlace l n
  else Lift.tell { x with holdQueue := x.holdQueue ++ [{ lane := l, request := n, holdStart := now }] } l (.hold n)

/-- The reservation entry of a lane's request is removed; none matching, nothing changes (R82). -/
def Lift.unreserve (x : Lift) (l : LaneNo) (n : RequestNo) : Lift :=
  { x with reservations := x.reservations.eraseP fun r => r.lane == l && r.request == n }

/-- The queue entry of a lane's request is removed; none matching, nothing changes (R82). -/
def Lift.unqueue (x : Lift) (l : LaneNo) (n : RequestNo) : Lift :=
  { x with holdQueue := x.holdQueue.eraseP fun e => e.lane == l && e.request == n }

/-- The occupancy rises by one, up to 999 (R76). -/
def Lift.enters (x : Lift) : Lift := { x with occupancy := bump 999 x.occupancy }

/-! ### What a lane hands a lift -/

/-- The oldest message a lane has handed a lift and it has not yet taken. -/
def State.messageTo (s : State) (l : LaneNo) (i : LiftNo) : Option LaneMessage := (s.lane l).toLifts[i].head?

/-- The lift takes that message: it leaves the lane, and the lift becomes `y`. -/
def State.liftTakes (s : State) (l : LaneNo) (i : LiftNo) (y : Lift) : State :=
  (s.setLane l { s.lane l with toLifts := (s.lane l).toLifts.set i (s.lane l).toLifts[i].tail }).setLift i y

/-- PLACE_REQUEST (R79, R80). -/
def execPlaceRequest (l : LaneNo) (i : LiftNo) (s : State) : Result :=
  match s.messageTo l i with
  | some (.placeRequest n) => .next (s.liftTakes l i ((s.lift i).takeRequest s.timebase l n))
  | _ => .next s

/-- LIFT_PASSAGE: the head's reserved place becomes occupancy (R76, R82). -/
def execLiftPassage (l : LaneNo) (i : LiftNo) (s : State) : Result :=
  match s.messageTo l i with
  | some (.passage n) => .next (s.liftTakes l i ((s.lift i).unreserve l n).enters.arbiter)
  | _ => .next s

/-- RELEASE (R82). -/
def execRelease (l : LaneNo) (i : LiftNo) (s : State) : Result :=
  match s.messageTo l i with
  | some (.release n) => .next (s.liftTakes l i ((s.lift i).unreserve l n).arbiter)
  | _ => .next s

/-- LEAVE (R82). -/
def execLeave (l : LaneNo) (i : LiftNo) (s : State) : Result :=
  match s.messageTo l i with
  | some (.leave n) => .next (s.liftTakes l i ((s.lift i).unqueue l n).arbiter)
  | _ => .next s

/-- LIFT_FREE_PASSAGE (R76, R123). -/
def execLiftFreePassage (l : LaneNo) (i : LiftNo) (s : State) : Result :=
  match s.messageTo l i with
  | some .freePassage => .next (s.liftTakes l i (s.lift i).enters)
  | _ => .next s

/-- LIFT_INTRUSION (R76, R124). -/
def execLiftIntrusion (l : LaneNo) (i : LiftNo) (s : State) : Result :=
  match s.messageTo l i with
  | some .intrusion => .next (s.liftTakes l i (s.lift i).enters)
  | _ => .next s

/-! ### Operation and lines -/

/-- Every lane is handed the lift's change of in-operation (R84, R85). -/
def Lift.handChange (x : Lift) (inOperation : Bool) : Lift := { x with changes := x.changes.map (· ++ [inOperation]) }

/-- The lift leaves operation: corral and hold queue are emptied, reservations kept (R84). -/
def Lift.leaveOperation (x : Lift) : Lift := Lift.handChange { x with occupancy := 0, holdQueue := [] } false

/-- The lift enters operation (R85). -/
def Lift.enterOperation (x : Lift) : Lift := (x.handChange true).arbiter

/-- The lift acts on a change of its state from one in or out of operation (R71). -/
def Lift.stateChanged (x : Lift) (wasInOperation : Bool) : Lift :=
  match wasInOperation, x.inOperation with
  | true, false => x.leaveOperation
  | false, true => x.enterOperation
  | _, _ => x

/-- A carrier pulse: while RUNNING it takes its seats from the corral, and the arbiter runs (R77). -/
def Lift.pulse (x : Lift) : Lift :=
  match x.state with
  | .running => Lift.arbiter { x with occupancy := x.occupancy - x.seatsPerCarrier }
  | .stopped | .closedWeather | .closedSchedule => x

/-- CARRIER_PULSE: the CARR line takes a level, and a pulse is taken when it becomes active after 20 ms of inactivity (R72, R77). -/
def execCarrierPulse (i : LiftNo) (active : Bool) (s : State) : Result :=
  let x := s.lift i
  let moved := { x with carrierLine := x.carrierLine.takes active }
  .next (s.setLift i (if x.carrierLine.counts active then moved.pulse else moved))

/-- The line state that LSA and LSB encode (R70). -/
def decodedLines : Bool → Bool → LiftState
  | false, false => .closedSchedule
  | true, false => .running
  | true, true => .stopped
  | false, true => .closedWeather

/-- LIFT_LINE_CHANGE (R70). -/
def execLiftLineChange (i : LiftNo) (lsa lsb : Bool) (s : State) : Result :=
  .next (s.setLift i { s.lift i with lineState := (s.lift i).lineState.lineTakes (decodedLines lsa lsb) 1000 })

/-- LIFT_DEBOUNCE_EXPIRY: the debounced line state changes, and the lift acts on the change of its state (R70, R71). -/
def execLiftDebounceExpiry (i : LiftNo) (s : State) : Result :=
  let x := s.lift i
  if x.lineState.isDue then
    .next (s.setLift i (Lift.stateChanged { x with lineState := x.lineState.settled } x.inOperation))
  else .next s

/-! ### LIFT_CONFIG and LIFT_READ -/

/-- The lift with the fields of a LIFT_CONFIG stored, each clamped into its range (R69). -/
def LiftForm.stored (f : LiftForm) (x : Lift) : Lift :=
  { x with enabled := decide (f.enabled = 1), resortLift := min 63 f.resortLift, seatsPerCarrier := clamp 1 12 f.seats,
           corralLimit := min 999 f.limit }

/-- Whether any field of a LIFT_CONFIG lies outside its range (R69). -/
def LiftForm.clamps (f : LiftForm) : Bool :=
  decide (63 < f.resortLift) || decide (f.seats < 1) || decide (12 < f.seats) || decide (999 < f.limit)

/-- Whether two lifts hold the same configuration. -/
def Lift.sameConfig (x y : Lift) : Bool :=
  decide (x.enabled = y.enabled) && decide (x.resortLift = y.resortLift) && decide (x.seatsPerCarrier = y.seatsPerCarrier)
    && decide (x.corralLimit = y.corralLimit)

/-- Raised, or set to 0: the arbiter runs (R83). -/
def limitMakesRoom (old new : Nat) : Bool := decide (old ≠ new) && (decide (new = 0) || decide (0 < old ∧ old < new))

/-- The lift takes the write and acts on what changed (R69, R83). -/
def Lift.configure (x : Lift) (f : LiftForm) : Lift :=
  let acted := (f.stored x).stateChanged x.inOperation
  if limitMakesRoom x.corralLimit acted.corralLimit then acted.arbiter else acted

/-- The reply code of a LIFT_CONFIG taken at the lift (R69). -/
def LiftForm.code (f : LiftForm) (x : Lift) : ReplyCode :=
  if f.clamps then .okClamped else if x.sameConfig (f.stored x) then .okNoChange else .ok

/-- LIFT_CONFIG; a lift index above 3 has been refused at routing (R69). -/
def execLiftConfig (i : LiftNo) (s : State) : Result :=
  match s.takeRequest (.lift i) .liftConfig with
  | none => .next s
  | some (r, s) =>
    let f := liftForm r.body
    if isFlag f.enabled then
      .next ((s.setLift i ((s.lift i).configure f)).answer r.place (f.code (s.lift i)) [])
    else .next (s.answer r.place .badField [])

/-- The lanes whose served lift is this lift (R86). DESIGN CHOICE: in rising lane number, an order R86 does not state (log entry 43). -/
def State.servedBy (s : State) (i : LiftNo) : List LaneNo := laneNumbers.filter fun l => (s.lane l).servedLift == some i

/-- LIFT_READ: the lift as its monitor stands when it takes the request; nothing is written (R86). -/
def execLiftRead (i : LiftNo) (s : State) : Result :=
  match s.takeRequest (.lift i) .liftRead with
  | none => .next s
  | some (r, s) => .next (s.answer r.place .ok (liftBytes (s.lift i) (s.servedBy i)))

/-! ### The served lift -/

/-- The lane takes a lift's change of in-operation, and derives its served lift again if its mapping names the lift (R73, R74). -/
def Lane.takeChange (env : LaneEnv) (i : LiftNo) (inOperation : Bool) (x : Lane) : Lane :=
  let held := { x with liftInOperation := x.liftInOperation.set i inOperation }
  if x.primaryLift = i ∨ x.secondaryLift = some i then
    held.rederiveLift env (if inOperation then .returned else .closed)
  else held

/-- The oldest change of in-operation of a lift leaves it for a lane. -/
def State.dropChange (s : State) (l : LaneNo) (i : LiftNo) : State :=
  s.setLift i { s.lift i with changes := (s.lift i).changes.set l (s.lift i).changes[l].tail }

/-- IN_OPERATION_CHANGE (R73, R74). -/
def execInOperationChange (l : LaneNo) (i : LiftNo) (s : State) : Result :=
  match (s.lift i).changes[l].head? with
  | some inOperation => .next ((s.dropChange l i).laneEvent l fun env x => x.takeChange env i inOperation)
  | none => .next s

end Sys2Proof.Machine
end

