-- ==== Sys2Proof/Machine/JournalOps.lean ====
section
/-! DEFINITION. The ride journal's own operations: appending, offering, acknowledging, the water marks (chapter 7). -/
namespace Sys2Proof.Machine

/-- The sequences form a circle of 4,294,967,295 values, 1 to 4,294,967,295 (R129). -/
def sequenceCount : Nat := 4294967295

/-- A step forward: one more, and 1 after 4,294,967,295 (R129). -/
def stepForward (q : Nat) : Nat := if q = sequenceCount then 1 else q + 1

/-- The number of steps forward that lead from one sequence to another (R129). -/
def sequenceDistance (start stop : Nat) : Nat := (stop + sequenceCount - start) % sequenceCount

/-- The held count (R128). -/
def Journal.held (j : Journal) : Nat := j.ring.length

/-- The high state is considered against the held count (R139). -/
def Journal.considerHigh (j : Journal) : Journal :=
  if !j.above && decide (j.highMark ≤ j.held) then
    { j with above := true, raises := j.raises ++ [{ condition := .journalHigh, detail := .heldCount j.held }] }
  else if j.above && decide (j.held ≤ j.lowMark) then { j with above := false }
  else j

/-- A record joins at the newest end with the next sequence; it becomes the send position when every record before it has been offered (R128, R129, R134). -/
def Journal.append (j : Journal) (resortLift : Option Nat) (b : RecordBody) : Journal :=
  { j with ring := j.ring ++ [{ sequence := j.nextSequence, resortLift := resortLift, body := b }],
           nextSequence := stepForward j.nextSequence,
           sendPosition := some (j.sendPosition.getD j.nextSequence) }

/-- The hourly bin of the record's lift, for the hour of its second of day, goes up by one; a record attributed to the station raises no bin (R132). -/
def Journal.raiseBin (j : Journal) (b : RecordBody) : Journal :=
  match b.lift with
  | none => j
  | some i =>
    if h : b.second / 3600 < 24 then
      { j with bins := j.bins.set i (j.bins[i].set (b.second / 3600) (turnOver (j.bins[i][b.second / 3600]))) }
    else j

/-- A passage-kind record is not written: the overflow counter of its lift, or of the station, goes up by one and JOURNAL_OVERFLOW is raised (R130). -/
def Journal.overflow (j : Journal) (lift : Option LiftNo) : Journal :=
  match lift with
  | some i =>
    { j with liftOverflow := j.liftOverflow.set i (turnOver j.liftOverflow[i]),
             raises := j.raises ++ [{ condition := .journalOverflow, detail := .overflow lift (turnOver j.liftOverflow[i]) }] }
  | none =>
    { j with stationOverflow := turnOver j.stationOverflow,
             raises := j.raises ++ [{ condition := .journalOverflow, detail := .overflow none (turnOver j.stationOverflow) }] }

/-- The journal takes a passage-kind record (R130). -/
def Journal.takeRide (j : Journal) (resortLift : Option Nat) (b : RecordBody) : Journal :=
  if j.held < 4080 then ((j.append resortLift b).raiseBin b).considerHigh
  else (j.overflow b.lift).raiseBin b

/-- The journal takes the offer of a money record: the journal with the record appended, and the sequence given, or nothing when 4,096 are held (R131). -/
def Journal.offerMoney (j : Journal) (b : RecordBody) : Option (Nat × Journal) :=
  if j.held < 4096 then some (j.nextSequence, (j.append none b).considerHigh) else none

/-- The record of a sequence held in the ring. -/
def Journal.recordAt (j : Journal) (q : Nat) : Option JournalRecord := j.ring.find? fun r => r.sequence == q

/-- The newest held sequence (R128). -/
def Journal.newest (j : Journal) : Option Nat := j.ring.getLast?.map (·.sequence)

/-- One step forward in the ring, or nothing from the newest held record (R134, R136). -/
def Journal.stepFrom (j : Journal) (q : Nat) : Option Nat := if j.newest = some q then none else some (stepForward q)

/-- The record offered to the transmitter and its replay flag, with the journal as it stands when the transmitter takes it (R134, R136). -/
def Journal.offer (j : Journal) : Option (JournalRecord × Bool × Journal) :=
  match j.sendPosition with
  | some q => (j.recordAt q).map fun r => (r, false, { j with sendPosition := j.stepFrom q })
  | none =>
    match j.replayCursor with
    | some q => (j.recordAt q).map fun r => (r, true, { j with replayCursor := j.stepFrom q })
    | none => none

/-- The ring after the record of sequence `q` and every older one are freed (R135). -/
def ringAfter : List JournalRecord → Nat → List JournalRecord
  | [], _ => []
  | r :: rest, q => if r.sequence = q then rest else ringAfter rest q

/-- Where a send position or a cursor stands once the ring has become `ring`: unmoved if its record stays held, else at the oldest record still held, if
any (R135, R137). -/
def movedTo (ring : List JournalRecord) (position : Option Nat) : Option Nat :=
  match position with
  | none => none
  | some q => if ring.any fun r => r.sequence == q then some q else ring.head?.map (·.sequence)

/-- A held sequence is acknowledged: it and every older record are freed (R135, R137, R139). -/
def Journal.free (j : Journal) (q : Nat) : Journal :=
  { j with ring := ringAfter j.ring q, sendPosition := movedTo (ringAfter j.ring q) j.sendPosition,
           replayCursor := movedTo (ringAfter j.ring q) j.replayCursor }.considerHigh

/-- The reference of R135: the oldest held sequence, or the next sequence if the ring is empty. -/
def Journal.reference (j : Journal) : Nat := (j.ring.head?.map (·.sequence)).getD j.nextSequence

/-- The water marks are written, clamped (R138, R139). -/
def Journal.setMarks (j : Journal) (low high : Nat) : Journal :=
  let high' := clamp 2 4080 high
  { j with highMark := high', lowMark := clamp 1 (high' - 1) low }.considerHigh

end Sys2Proof.Machine
end

