-- ==== Sys2Proof/Machine/Refunds.lean ====
section
/-! DEFINITION. The refund unit: the refund arithmetic, REFUND_REQUEST in QUOTE and RETIRE mode, and the late-use adjustment (chapter 8). -/
namespace Sys2Proof.Machine

/-! ### The refund arithmetic (R150 to R154) -/

/-- The product's rate for a day class (R150). -/
def Product.rateOf (p : Product) : DayClass → Nat
  | .peak => p.peakRate
  | .regular => p.regularRate
  | .low => p.lowRate

/-- A day of the list as the arithmetic sees it: its rate and its credit percent. -/
structure DayTerm where
  rate : Nat
  credit : Nat
  deriving DecidableEq, Repr

/-- The weather credit of one day, rounded down (R151). -/
def DayTerm.weather (t : DayTerm) : Nat := t.rate * t.credit / 100

/-- Stage 1, the consumed value C (R150). -/
def consumedValue (terms : List DayTerm) : Nat := (terms.map (·.rate)).sum

/-- Stage 2, the weather credit W (R151). -/
def weatherCredit (terms : List DayTerm) : Nat := (terms.map DayTerm.weather).sum

/-- Stage 3, the gross sum per head (R152). -/
def grossPerHead (price c w : Nat) : Nat := if price ≤ c - w then 0 else price - (c - w)

/-- Stage 4, the net sum per head (R153). -/
def netPerHead (gross fee : Nat) : Nat := if gross ≤ fee then 0 else gross - fee

/-- The figures a refund request or an adjustment computes once (R156). -/
structure Figures where
  consumed : Nat
  weather : Nat
  gross : Nat
  net : Nat
  total : Nat
  deriving DecidableEq, Repr

/-- The stages of section 8.3 on a price, a fee and a headcount; stage 6 is the total (R154). -/
def figuresOf (price fee headcount : Nat) (terms : List DayTerm) : Figures :=
  let c := consumedValue terms
  let w := weatherCredit terms
  let gross := grossPerHead price c w
  let net := netPerHead gross fee
  { consumed := c, weather := w, gross := gross, net := net, total := net * headcount }

/-- One reading of the calendar for the days of a list (R144). -/
def State.dayTerms (s : State) (p : Product) (days : List Nat) : List DayTerm :=
  days.map fun d => { rate := p.rateOf (s.calendar.day d).dayClass, credit := s.creditPercent d }

/-- The figures of a row with a given day list, valued by a product (R150 to R154). -/
def State.figures (s : State) (p : Product) (row : PassRow) (days : List Nat) : Figures :=
  figuresOf row.pricePerHead p.refundFee row.headcount (s.dayTerms p days)

/-! ### The checks of a REFUND_REQUEST (R145) -/

/-- The refund deadline: the base day plus the refund grace (R147). -/
def refundDeadline (p : Product) (row : PassRow) : Nat := row.expiryDay.getD p.validTo + p.refundGrace

/-- The unused days (R149). -/
def unusedDays (p : Product) (row : PassRow) : Nat := p.dayCount - row.consumed.length

/-- A request that has passed checks 1 to 10: the row at its slot, the current day, and the figures. -/
structure RefundCase where
  slot : Nat
  row : PassRow
  day : Nat
  deadline : Nat
  unused : Nat
  figures : Figures
  deriving DecidableEq, Repr

/-- The reply of check 5: the refund field, marked absent when the row carries none, and the headcount (R146). -/
def retiredBytes (row : PassRow) : List Byte :=
  match row.refund with
  | none => []
  | some f => 1 :: be f.paidPerHead 4 ++ be f.balancePerHead 4 ++ be f.retireDay 1 ++ be row.headcount 1

/-- Checks 4 to 10 of R145 on the row found, in order: the refusal and its fields, if one fails. -/
def refundRefusal (p : Product) (row : PassRow) (day : Nat) : Option (ReplyCode × List Byte) :=
  if row.status = .blocked then some (.blocked, [])
  else if row.status = .retired then some (.alreadyRetired, retiredBytes row)
  else if !p.isDefined then some (.noProduct, [])
  else if p.kind ≠ .multiDay ∨ !p.refundable then some (.notRefundable, [])
  else if refundDeadline p row < day then some (.expired, [])
  else if row.pendingLane.isSome then some (.passBusy, [])
  else if unusedDays p row = 0 then some (.nothingUnused, [])
  else none

/-- Checks 2 to 10 of R145, and the figures of a request that passes them. -/
def State.valuePass (s : State) (uid : Uid) : Except (ReplyCode × List Byte) RefundCase :=
  match s.calendar.currentDay with
  | none => .error (.noDay, [])
  | some day =>
    match lookup s.table.slots uid with
    | none => .error (.unknown, [])
    | some (slot, row) =>
      match refundRefusal (s.product row.product) row day with
      | some refusal => .error refusal
      | none =>
        let p := s.product row.product
        .ok { slot := slot, row := row, day := day, deadline := refundDeadline p row, unused := unusedDays p row,
              figures := s.figures p row row.consumed }

/-- The figures as a reply carries them (R157), with the sequence of the REFUND record when there is one (R158). -/
def RefundCase.bytes (c : RefundCase) (belowMinimum : Bool) (sequence : Nat) : List Byte :=
  List.replicate 10 0 ++ be c.row.headcount 1 ++ uidBytes c.row.uid ++ be c.deadline 2 ++ be c.unused 1
    ++ be c.figures.consumed 4 ++ be c.figures.weather 4 ++ be c.figures.gross 4 ++ be c.figures.net 4
    ++ be c.figures.total 4 ++ [flagByte belowMinimum] ++ be sequence 4

/-! ### Quote and retirement -/

/-- The reply to a QUOTE of a pass (R145, R157). -/
def State.quote (s : State) (uid : Uid) : ReplyCode × List Byte :=
  match s.valuePass uid with
  | .error refusal => refusal
  | .ok c =>
    if c.figures.net < s.minimumPayout then (.belowMinimum, c.bytes true 0) else (.ok, c.bytes false 0)

/-- The REFUND record of a retirement (R158, R167). -/
def RefundCase.record (c : RefundCase) (second : Nat) : RecordBody :=
  { kind := .refund, second := second, day := some c.day, lane := none, lift := none, uid := some c.row.uid,
    headIndex := none, newDay := none, amountPerHead := some c.figures.net, headcount := some c.row.headcount,
    unusedDays := some c.unused }

/-- The row a retirement leaves: RETIRED, with its refund field (R158). -/
def RefundCase.retiredRow (c : RefundCase) : PassRow :=
  { c.row with
    status := .retired
    refund := some { paidPerHead := c.figures.net, balancePerHead := c.figures.net, retireDay := c.day } }

/-- A retirement that has passed checks 1 to 11: the offer to the journal, and the row if it is appended (R158, R159). -/
def State.retire (s : State) (c : RefundCase) : ReplyCode × List Byte × State :=
  match s.journal.offerMoney (c.record s.calendar.secondOfDay) with
  | none => (.journalFull, c.bytes false 0, s)
  | some (sequence, journal) =>
    (.ok, c.bytes false sequence, { s with journal := journal }.writeRow c.slot c.retiredRow)

/-- A RETIRE of a pass: the checks of R145 in order, and its effect. -/
def State.applyRetire (s : State) (uid : Uid) : ReplyCode × List Byte × State :=
  match s.valuePass uid with
  | .error (code, fields) => (code, fields, s)
  | .ok c => if c.figures.net < s.minimumPayout then (.belowMinimum, c.bytes true 0, s) else s.retire c

/-- The mode a REFUND_REQUEST carries. -/
def Routed.refundMode (r : Routed) : Option RefundMode := refundModeOf (field r.body 8 1)

/-- The next request at the refund unit, when it is a REFUND_REQUEST that fails check 1 of R145; it never reaches the table port. -/
def State.takeBadRefund (s : State) : Option (Routed × State) :=
  match s.takeRequest .refundUnit .refundRequest with
  | some (r, s) => if refundFormOk r.body then none else some (r, s)
  | none => none

/-- REFUND_QUOTE: a REFUND_REQUEST whose mode is not RETIRE; one that names no mode is refused here (R145, R157). -/
def execRefundQuote (s : State) : Result :=
  match s.takeBadRefund with
  | some (r, s') => if r.refundMode = some .retire then .next s else .next (s'.answer r.place .badField [])
  | none =>
    match s.takePortRequest .refundRequest with
    | none => .next s
    | some (r, s') =>
      if r.refundMode = some .retire then .next s
      else .next (s'.answer r.place (s'.quote (uidField r.body 0)).1 (s'.quote (uidField r.body 0)).2)

/-- REFUND_RETIRE: a REFUND_REQUEST in RETIRE mode (R145, R158, R159). -/
def execRefundRetire (s : State) : Result :=
  match s.takeBadRefund with
  | some (r, s') => if r.refundMode = some .retire then .next (s'.answer r.place .badField []) else .next s
  | none =>
    match s.takePortRequest .refundRequest with
    | none => .next s
    | some (r, s') =>
      if r.refundMode = some .retire then
        .next ((s'.applyRetire (uidField r.body 0)).2.2.answer r.place (s'.applyRetire (uidField r.body 0)).1
          (s'.applyRetire (uidField r.body 0)).2.1)
      else .next s

/-! ### Late-use adjustments (R162 to R165) -/

/-- What an adjustment that was made reports (R164, R173). -/
structure Adjusted where
  perHead : Nat
  total : Nat
  balance : Nat
  sequence : Nat
  deriving DecidableEq, Repr

/-- The refund unit's answer to the owner of usage merges (R162). -/
inductive Adjustment where
  | noAdjustment
  | adjusted (figures : Adjusted) (journal : Journal)
  | full
  deriving DecidableEq, Repr

/-- The ADJUSTMENT record (R164, R167). -/
def adjustmentRecord (row : PassRow) (perHead : Nat) (day : Option Nat) (second : Nat) : RecordBody :=
  { kind := .adjustment, second := second, day := day, lane := none, lift := none, uid := some row.uid, headIndex := none,
    newDay := none, amountPerHead := some perHead, headcount := some row.headcount, unusedDays := none }

/-- The balance falls to a new net below it: the ADJUSTMENT record is offered (R164, R165). -/
def State.lowerBalance (s : State) (row : PassRow) (balance net : Nat) : Adjustment :=
  match s.journal.offerMoney (adjustmentRecord row (balance - net) s.calendar.currentDay s.calendar.secondOfDay) with
  | none => .full
  | some (sequence, journal) =>
    .adjusted { perHead := balance - net, total := (balance - net) * row.headcount, balance := net, sequence := sequence }
      journal

/-- The adjustment of a row into whose list day `d` is about to be inserted (R162, R163, R164). -/
def State.adjust (s : State) (row : PassRow) (d : Nat) : Adjustment :=
  match row.refund with
  | none => .noAdjustment
  | some f =>
    let net := (s.figures (s.product row.product) row (insertDay d row.consumed)).net
    if net < f.balancePerHead then s.lowerBalance row f.balancePerHead net else .noAdjustment

end Sys2Proof.Machine
end

