-- ==== Sys2Proof/Machine/Merges.lean ====
section
/-! DEFINITION. Usage merges (section 9.1). -/
namespace Sys2Proof.Machine

/-- The fields of a USAGE_MERGE reply after the UID and the day (R173). -/
structure MergeFigures where
  listLength : Nat
  dayCount : Nat
  seasonDays : Nat
  lastCounted : Option Nat
  adjusted : Adjusted
  deriving DecidableEq, Repr

def Adjusted.absent : Adjusted := { perHead := 0, total := 0, balance := 0, sequence := 0 }

/-- The figures of a MULTI_DAY row. -/
def multiDayFigures (row : PassRow) (p : Product) (a : Adjusted) : MergeFigures :=
  { listLength := row.consumed.length, dayCount := p.dayCount, seasonDays := 0, lastCounted := none, adjusted := a }

/-- The figures of a SEASON row. -/
def seasonFigures (row : PassRow) : MergeFigures :=
  { listLength := 0, dayCount := 0, seasonDays := row.seasonDays, lastCounted := row.lastCountedDay,
    adjusted := Adjusted.absent }

def MergeFigures.bytes (f : MergeFigures) : List Byte :=
  be f.listLength 1 ++ be f.dayCount 1 ++ be f.seasonDays 1 ++ optionalBytes f.lastCounted 1 ++ be f.adjusted.perHead 4
    ++ be f.adjusted.total 4 ++ be f.adjusted.balance 4 ++ be f.adjusted.sequence 4

/-- What a merge answers and leaves; a refusal has no figures (R173). -/
structure Merged where
  code : ReplyCode
  figures : Option MergeFigures
  state : State
  deriving DecidableEq, Repr

/-- A SEASON row counts a later day (R170). -/
def State.mergeSeason (s : State) (slot : Nat) (row : PassRow) (d : Nat) : Merged :=
  if row.lastCountedDay.all fun c => decide (c < d) then
    let counted := { row with seasonDays := min 240 (row.seasonDays + 1), lastCountedDay := some d }
    { code := .ok, figures := some (seasonFigures counted), state := s.writeRow slot counted }
  else { code := .okNoChange, figures := some (seasonFigures row), state := s }

/-- The row with the day inserted, and the balance when it has been lowered (R171, R172). -/
def mergedRow (row : PassRow) (d : Nat) (balance : Option Nat) : PassRow :=
  { row with
    consumed := insertDay d row.consumed
    refund := (match balance with
      | some b => row.refund.map fun f => { f with balancePerHead := b }
      | none => row.refund) }

/-- The raise of an OVERCONSUMED merge (R171). -/
def State.raiseOverconsumed (s : State) (uid : Uid) (d : Nat) : State :=
  { s with table := { s.table with raises := s.table.raises ++ [{ condition := .overconsumed, detail := .merge uid d }] } }

/-- A MULTI_DAY row takes a day it does not hold, where it has room, by the refund unit's answer (R171, R172). -/
def State.mergeInsert (s : State) (slot : Nat) (row : PassRow) (d : Nat) : Merged :=
  let p := s.product row.product
  match s.adjust row d with
  | .noAdjustment =>
    { code := .ok, figures := some (multiDayFigures (mergedRow row d none) p Adjusted.absent),
      state := s.writeRow slot (mergedRow row d none) }
  | .adjusted a journal =>
    { code := .ok, figures := some (multiDayFigures (mergedRow row d (some a.balance)) p a),
      state := { s with journal := journal }.writeRow slot (mergedRow row d (some a.balance)) }
  | .full => { code := .journalFull, figures := none, state := s }

/-- A merge on a MULTI_DAY row (R171, R172). -/
def State.mergeMultiDay (s : State) (slot : Nat) (row : PassRow) (d : Nat) : Merged :=
  let p := s.product row.product
  if row.consumed.contains d then
    { code := .okNoChange, figures := some (multiDayFigures row p Adjusted.absent), state := s }
  else if p.dayCount ≤ row.consumed.length then
    { code := .overconsumed, figures := none, state := s.raiseOverconsumed row.uid d }
  else s.mergeInsert slot row d

/-- The checks of R169 in order, and the merge by the kind of the row's product. -/
def State.merge (s : State) (uid : Uid) (d : Nat) : Merged :=
  match (if uid = 0 then none else lookup s.table.slots uid) with
  | none => { code := .unknown, figures := none, state := s }
  | some (slot, row) =>
    if 239 < d then { code := .range, figures := none, state := s }
    else if s.calendar.currentDay.all fun c => decide (c < d) then { code := .futureDay, figures := none, state := s }
    else if !(s.product row.product).isDefined then { code := .noProduct, figures := none, state := s }
    else match (s.product row.product).kind with
    | .season => s.mergeSeason slot row d
    | .multiDay => s.mergeMultiDay slot row d

/-- The fields of a USAGE_MERGE reply: the UID and the day as requested, and the figures of one that was not refused (R173). -/
def mergeBytes (uid : Uid) (d : Nat) (figures : Option MergeFigures) : List Byte :=
  uidBytes uid ++ be d 1 ++ (match figures with
    | some f => f.bytes
    | none => [])

/-- USAGE_MERGE (R168 to R173). -/
def execUsageMerge (s : State) : Result :=
  match s.takePortRequest .usageMerge with
  | none => .next s
  | some (r, s) =>
    let uid := uidField r.body 0
    let d := field r.body 8 1
    .next ((s.merge uid d).state.answer r.place (s.merge uid d).code (mergeBytes uid d (s.merge uid d).figures))

end Sys2Proof.Machine
end

