-- ==== Sys2Proof/Machine/Passes.lean ====
section
/-! DEFINITION. The single-row requests of the pass table: PASS_PUT, PASS_SET_STATUS, PASS_DELETE and PASS_READ (section 1.2). -/
namespace Sys2Proof.Machine

/-- The pass table hands a lane a PASS_STATUS cancellation for a UID (R12). -/
def State.handCancellation (s : State) (l : LaneNo) (uid : Uid) : State :=
  { s with table := { s.table with cancellations := s.table.cancellations.set l (s.table.cancellations[l] ++ [uid]) } }

/-- A row operation that writes a status other than ACTIVE, and different from the stored one, to a row with a pending lane hands that lane a
cancellation (R12). -/
def State.cancelFor (s : State) (stored : PassRow) (written : PassStatus) : State :=
  match stored.pendingLane with
  | some l => if written ≠ .active ∧ written ≠ stored.status then s.handCancellation l stored.uid else s
  | none => s

/-- Check 1 of R9. -/
def PassForm.fieldsOk (f : PassForm) : Bool :=
  decide (f.uid ≠ 0) && (passStatusOf f.statusCode).isSome && decide (1 ≤ f.headcount ∧ f.headcount ≤ 30)
    && decide (f.price ≤ 999999) && f.expiry.ok 239 && decide (f.seasonDays ≤ 240) && f.lastCounted.ok 239
    && decide (f.listLength ≤ 14) && f.consumed.all (fun d => decide (d ≤ 239)) && ascending f.consumed

/-- Check 3 of R9: the fields against the product. -/
def PassForm.fitsProduct (f : PassForm) (p : Product) : Bool :=
  (p.groupAllowed || decide (f.headcount ≤ 1))
    && (match p.kind with
        | .season => f.consumed.isEmpty
        | .multiDay => decide (f.seasonDays = 0) && f.lastCounted.get.isNone)

/-- Whether a day is after the current day; when no current day exists, none is (check 5 of R9). -/
def afterCurrent (current : Option Nat) (d : Nat) : Bool :=
  match current with
  | some c => decide (c < d)
  | none => false

/-- Checks 1 to 5 of R9, in order: those of the request against the product table and the current day. -/
def PassForm.refusal (f : PassForm) (p : Product) (current : Option Nat) : Option ReplyCode :=
  if !f.fieldsOk then some .badField
  else if !p.isDefined then some .noProduct
  else if !f.fitsProduct p then some .badField
  else if p.kind = .multiDay ∧ p.dayCount < f.consumed.length then some .overconsumed
  else if f.consumed.any (afterCurrent current) || f.lastCounted.get.any (afterCurrent current) then some .futureDay
  else none

/-- The status a form whose status byte is legal names. -/
def PassForm.status (f : PassForm) : PassStatus := (passStatusOf f.statusCode).getD .active

/-- The row a PASS_PUT inserts (R10). -/
def PassForm.newRow (f : PassForm) : PassRow :=
  { uid := f.uid, product := f.product, status := f.status, headcount := f.headcount, pricePerHead := f.price,
    expiryDay := f.expiry.get, consumed := f.consumed, seasonDays := f.seasonDays, lastCountedDay := f.lastCounted.get,
    lastPassage := none, pendingLane := none, refund := none, generation := f.generation }

/-- The row a PASS_PUT makes of a stored one, given the kinds of the stored and the given product (R11). -/
def PassForm.updatedRow (f : PassForm) (stored : PassRow) (storedKind givenKind : ProductKind) : PassRow :=
  let bothMultiDay := storedKind = .multiDay ∧ givenKind = .multiDay
  let bothSeason := storedKind = .season ∧ givenKind = .season
  { stored with
    product := f.product, status := f.status, headcount := f.headcount, pricePerHead := f.price, expiryDay := f.expiry.get,
    generation := f.generation
    consumed := if bothMultiDay then unionDays stored.consumed f.consumed else f.consumed
    seasonDays := if bothSeason then max stored.seasonDays f.seasonDays else f.seasonDays
    lastCountedDay := if bothSeason then laterDay stored.lastCountedDay f.lastCounted.get else f.lastCounted.get }

/-- A change of product code moves one count from the old product to the new (R11, R17). -/
def State.moveCount (s : State) (old new : ProductCode) : State :=
  if old = new then s else (s.uncountRow old).countRow new

/-- The update of a held row by PASS_PUT: checks 8 and 9 of R9, then R11 and R12. -/
def State.updateByPut (s : State) (f : PassForm) (slot : Nat) (stored : PassRow) : ReplyCode × State :=
  let storedKind := (s.product stored.product).kind
  let given := s.product f.product
  if stored.refund.isSome ∧ f.status ≠ .retired then (.retiredLocal, s)
  else if storedKind = .multiDay ∧ given.kind = .multiDay
      ∧ given.dayCount < (unionDays stored.consumed f.consumed).length then (.overconsumed, s)
  else
    (.ok, ((s.writeRow slot (f.updatedRow stored storedKind given.kind)).moveCount stored.product f.product).cancelFor
      stored f.status)

/-- The insertion of a row whose UID is not held: check 7 of R9, then R10. -/
def State.insertByPut (s : State) (f : PassForm) : ReplyCode × State :=
  match freeSlotFor s.table.slots f.uid with
  | none => (.bucketFull, s)
  | some slot => (.ok, s.insertRow slot f.newRow)

/-- The lookup of check 6 of R9, and the row operation that follows it. -/
def State.putRow (s : State) (f : PassForm) : ReplyCode × State :=
  match lookup s.table.slots f.uid with
  | none => s.insertByPut f
  | some (slot, stored) => s.updateByPut f slot stored

/-- A form that checks 1 to 5 of R9 refused writes nothing; one they let pass goes on to check 6. -/
def State.putUnlessRefused (s : State) (f : PassForm) : Option ReplyCode → ReplyCode × State
  | some code => (code, s)
  | none => s.putRow f

/-- One PASS_PUT, or one stream row applied as one: the checks of R9 in order, then R10 or R11. -/
def State.applyPut (s : State) (f : PassForm) : ReplyCode × State :=
  s.putUnlessRefused f (f.refusal (s.product f.product) s.calendar.currentDay)

/-- PASS_PUT (R9, R10, R11, R12). -/
def execPassPut (s : State) : Result :=
  match s.takePortRequest .passPut with
  | none => .next s
  | some (r, s) => .next ((s.applyPut (passForm r.body)).2.answer r.place (s.applyPut (passForm r.body)).1 [])

/-- PASS_SET_STATUS on a row that is held (R13). -/
def State.setStatus (s : State) (slot : Nat) (row : PassRow) (status : PassStatus) : ReplyCode × State :=
  if row.refund.isSome ∧ status ≠ .retired then (.retiredLocal, s)
  else if status = row.status then (.okNoChange, s)
  else (.ok, (s.writeRow slot { row with status := status }).cancelFor row status)

/-- The checks of PASS_SET_STATUS in order, and its effect (R13). -/
def State.applySetStatus (s : State) (uid : Uid) (statusCode : Nat) : ReplyCode × State :=
  if uid = 0 then (.badField, s)
  else match passStatusOf statusCode with
  | none => (.badField, s)
  | some status =>
    match lookup s.table.slots uid with
    | none => (.unknown, s)
    | some (slot, row) => s.setStatus slot row status

/-- PASS_SET_STATUS (R12, R13). -/
def execPassSetStatus (s : State) : Result :=
  match s.takePortRequest .passSetStatus with
  | none => .next s
  | some (r, s) =>
    .next ((s.applySetStatus (uidField r.body 0) (field r.body 8 1)).2.answer r.place
      (s.applySetStatus (uidField r.body 0) (field r.body 8 1)).1 [])

/-- The checks of PASS_DELETE in order, and its effect (R14). -/
def State.applyDelete (s : State) (uid : Uid) : ReplyCode × State :=
  if uid = 0 then (.badField, s)
  else match lookup s.table.slots uid with
  | none => (.unknown, s)
  | some (slot, row) => if row.pendingLane.isSome then (.passBusy, s) else (.ok, s.deleteRow slot row)

/-- PASS_DELETE (R14). -/
def execPassDelete (s : State) : Result :=
  match s.takePortRequest .passDelete with
  | none => .next s
  | some (r, s) =>
    .next ((s.applyDelete (uidField r.body 0)).2.answer r.place (s.applyDelete (uidField r.body 0)).1 [])

/-- PASS_READ: the row as the row operation finds it; nothing is written (R15). -/
def execPassRead (s : State) : Result :=
  match s.takePortRequest .passRead with
  | none => .next s
  | some (r, s) =>
    if uidField r.body 0 = 0 then .next (s.answer r.place .badField [])
    else match lookup s.table.slots (uidField r.body 0) with
    | none => .next (s.answer r.place .unknown [])
    | some (slot, row) => .next (s.answer r.place .ok (passRowBytes slot row))

end Sys2Proof.Machine
end

