-- ==== Sys2Proof/Machine/Products.lean ====
section
/-! DEFINITION. The product table and its protection (sections 1.3 and 1.4). -/
namespace Sys2Proof.Machine

/-- Whether a product code is protected: inside or outside the window, by its sense (R22). -/
def Protection.covers (p : Protection) (code : Nat) : Bool :=
  match p.sense with
  | .inside => decide (p.low ≤ code ∧ code ≤ p.high)
  | .outside => decide (code < p.low ∨ p.high < code)

/-- The protection check of PRODUCT_PUT and PRODUCT_CLEAR (R24). -/
def State.protectionRefusal (s : State) (code : ProductCode) : Option ReplyCode :=
  if !s.protection.covers code.val then none
  else match s.protection.mode with
  | .unprotected => none
  | .keyed => if s.serviceKey.debounced then none else some .keyRequired
  | .locked => some .isProtected

/-- Check 2 of R18, given the kind the request names. -/
def ProductForm.fieldsOk (f : ProductForm) (kind : ProductKind) : Bool :=
  (match kind with
    | .multiDay => decide (1 ≤ f.dayCount ∧ f.dayCount ≤ 14)
    | .season => decide (f.refundable ≠ 1))
    && decide (f.validFrom ≤ 239) && decide (f.validTo ≤ 239) && decide (f.validFrom ≤ f.validTo)
    && decide (f.rerideInterval ≤ 3600) && decide (f.refundGrace ≤ 30) && decide (f.peakRate ≤ 99999)
    && decide (f.regularRate ≤ 99999) && decide (f.lowRate ≤ 99999) && decide (f.refundFee ≤ 99999)
    && isFlag f.groupAllowed && isFlag f.refundable

/-- The record a PRODUCT_PUT writes: every field carried, with the row count kept (R18). -/
def ProductForm.written (f : ProductForm) (kind : ProductKind) (rowCount : Nat) : Product :=
  { isDefined := true, kind := kind, dayCount := (match kind with | .multiDay => f.dayCount | .season => 0),
    validFrom := f.validFrom, validTo := f.validTo, liftMask := f.liftMask, rerideInterval := f.rerideInterval,
    groupAllowed := decide (f.groupAllowed = 1), refundable := decide (f.refundable = 1), refundGrace := f.refundGrace,
    peakRate := f.peakRate, regularRate := f.regularRate, lowRate := f.lowRate, refundFee := f.refundFee,
    rowCount := rowCount }

/-- The checks of PRODUCT_PUT in order, and its effect (R18). -/
def State.applyProductPut (s : State) (f : ProductForm) : ReplyCode × State :=
  match s.protectionRefusal f.code with
  | some code => (code, s)
  | none =>
    match productKindOf f.kindCode with
    | none => (.badField, s)
    | some kind =>
      let old := s.product f.code
      if !f.fieldsOk kind then (.badField, s)
      else if old.isDefined ∧ kind ≠ old.kind then (.kindChange, s)
      else if old.isDefined ∧ kind = .multiDay ∧ f.dayCount < old.dayCount then (.dDecrease, s)
      else (.ok, s.setProduct f.code (f.written kind old.rowCount))

/-- PRODUCT_PUT, one operation at the table port (R18, R21). -/
def execProductPut (s : State) : Result :=
  match s.takePortRequest .productPut with
  | none => .next s
  | some (r, s) =>
    .next ((s.applyProductPut (productForm r.body)).2.answer r.place (s.applyProductPut (productForm r.body)).1 [])

/-- The checks of PRODUCT_CLEAR in order, and its effect (R19). -/
def State.applyProductClear (s : State) (code : ProductCode) : ReplyCode × State :=
  match s.protectionRefusal code with
  | some refusal => (refusal, s)
  | none =>
    if 0 < (s.product code).rowCount then (.productInUse, s)
    else if !(s.product code).isDefined then (.okNoChange, s)
    else (.ok, s.setProduct code Product.undefinedRecord)

/-- PRODUCT_CLEAR, one operation at the table port (R19, R21). -/
def execProductClear (s : State) : Result :=
  match s.takePortRequest .productClear with
  | none => .next s
  | some (r, s) =>
    .next ((s.applyProductClear (byteField r.body 0)).2.answer r.place (s.applyProductClear (byteField r.body 0)).1 [])

/-- PRODUCT_READ: answered OK for every code, defined or not; whether the code is protected is as R22 defines it (R20, log entry 19). -/
def execProductRead (s : State) : Result :=
  match s.takeRequest .productTable .productRead with
  | none => .next s
  | some (r, s) =>
    let code := byteField r.body 0
    .next (s.answer r.place .ok (productBytes (s.product code) (s.protection.covers code.val)))

/-- A PROTECT_SET that the standing mode lets be taken: its window is checked, then mode and window take the values given (R25). -/
def State.takeProtectSet (s : State) (mode : ProtectionMode) (f : ProtectForm) : ReplyCode × State :=
  match windowSenseOf f.senseCode with
  | none => (.badField, s)
  | some sense =>
    if f.high < f.low then (.badField, s)
    else (.ok, { s with protection := { mode := mode, low := f.low, high := f.high, sense := sense } })

/-- PROTECT_SET by the mode that stands when it is taken (R25). -/
def State.applyProtectSet (s : State) (f : ProtectForm) : ReplyCode × State :=
  match protectionModeOf f.modeCode with
  | none => (.badField, s)
  | some mode =>
    match s.protection.mode with
    | .unprotected => s.takeProtectSet mode f
    | .keyed => if s.serviceKey.debounced then s.takeProtectSet mode f else (.keyRequired, s)
    | .locked => if mode = .locked then (.okNoChange, s) else (.isProtected, s)

/-- PROTECT_SET (R25). -/
def execProtectSet (s : State) : Result :=
  match s.takeRequest .productTable .protectSet with
  | none => .next s
  | some (r, s) =>
    .next ((s.applyProtectSet (protectForm r.body)).2.answer r.place (s.applyProtectSet (protectForm r.body)).1 [])

/-- SERVICE_KEY_LINE_CHANGE (R23). -/
def execServiceKeyLineChange (asserted : Bool) (s : State) : Result :=
  .next { s with serviceKey := s.serviceKey.lineTakes asserted 100 }

/-- SERVICE_KEY_DEBOUNCE_EXPIRY: the line has held a new level for 100 ms (R23). -/
def execServiceKeyDebounceExpiry (s : State) : Result :=
  if s.serviceKey.isDue then .next { s with serviceKey := s.serviceKey.settled } else .next s

/-- A LOCKED mode becomes KEYED and the window is kept (R22). -/
def Protection.unlocked (p : Protection) : Protection := if p.mode = .locked then { p with mode := .keyed } else p

/-- PROTECTION_DAY_OPEN: the product table takes a DAY_OPEN; LOCKED becomes KEYED and the window is kept (R22, R32). -/
def execProtectionDayOpen (s : State) : Result :=
  if s.calendar.toProductTable = 0 then .next s
  else
    .next { s with
      calendar := { s.calendar with toProductTable := s.calendar.toProductTable - 1 }
      protection := s.protection.unlocked }

end Sys2Proof.Machine
end

