-- ==== Sys2Proof/Config.lean ====
section
/-! DEFINITION. What the manual leaves open and no rule fixes: free values, opaque to every proof (guide, "What the manual
leaves undefined"). -/
namespace Sys2Proof.Config

/-- The tag in the header of the n-th NOTICE or RECORD frame the part sends: R187 gives the tag a meaning only in requests and
replies, and no rule states its value in a frame that answers no request. Log entry 3. -/
opaque unsolicitedTag : Nat → Tag

/-- The cycles of the 32.768 kHz crystal that complete within the millisecond that begins at the n-th reading: the crystal and the
millisecond timebase are independent (section 0.7) and no rule ties one to the other. Log entry 4. -/
opaque crystalCyclesIn : Reading → BitVec 15

/-- Whether a setting that the trunk port has handed to its owner and the owner has not yet taken when a station reset arrives
is still taken after it: R192, R193 and the resets of the owners do not say. Log entry 5. -/
opaque handedSettingsSurviveReset : Bool

end Sys2Proof.Config
end

