-- ==== Sys2Proof/Machine/Resets.lean ====
section
/-! DEFINITION. Power-on reset, the memory clear, station reset, and the cabinet reset line (R7, R8, R66, R87, R141, R186, R190, R192). -/
namespace Sys2Proof.Machine

/-- POWER_ON_RESET: every block takes its power-on values; the lines keep the levels they have, and the debounces and pulse measures start from them
(R7, R23, R26, R42, R45, R46, R67, R70, R72, R87, R104, R106, R125, R141, R143, R175, R190, R192, R194). -/
def execPowerOnReset (s : State) : Result :=
  .next { State.reset with
    serviceKey := Debounce.powerOn false s.serviceKey.line 100
    lanes := s.lanes.map fun x => Lane.powerOn x.presence.line x.latchReleased x.rotationLine.active
    lifts := s.lifts.map fun x => Lift.powerOn x.lineState.line x.carrierLine.active
    resetLine := { asserted := s.resetLine.asserted, remaining := 10, armed := false }
    freeIndex := s.freeIndex
    pending := s.pending }

/-- MEMORY_CLEAR_DONE: every slot is free, the arbiter holds its reset values, and the part status becomes READY (R7, R190). -/
def execMemoryClearDone (s : State) : Result :=
  match s.trunk.partStatus with
  | .ready => .next s
  | .starting =>
    .next { s with table := { s.table with slots := [], usedSlots := 0 }, arbiter := Arbiter.initial,
                   trunk := { s.trunk with partStatus := .ready } }

/-- What a station reset leaves of the requests routed and not yet taken: their reply places are freed, so no owner takes them (R188, R192; log entry
14); whether a setting already handed on is still taken is a free value (log entry 5). -/
def routedAfterReset (routed : List Routed) : List Routed :=
  if Config.handedSettingsSurviveReset then
    (routed.filter fun r => r.kind = .config && r.owner ≠ .trunkPort).map fun r => { r with place := none }
  else []

/-- The trunk port's part of a station reset, in one event (R192). -/
def TrunkPort.stationReset (t : TrunkPort) (restart : Option Tag) : TrunkPort :=
  TrunkPort.raiseRestarted
    { t with rxQueue := [], reserved := [], pendingNotices := [],
             filled := (match restart with
               | some tag => [{ kind := RequestKind.restart.toByte + 0x80, tag := tag, body := replyBody .restart .ok [] }]
               | none => []),
             transmitter := t.transmitter.map fun x => { x with occupies := .nothing } }

/-- Every pending lane field becomes absent; cancellations not yet taken are discarded (R8, R12). -/
def PassTable.stationReset (t : PassTable) : PassTable :=
  { t with slots := t.slots.map fun p => (p.1, { p.2 with pendingLane := none }), cancellations := Vector.replicate 12 [] }

/-- A station reset starts, for the RESTART of a tag or for the cabinet line: the trunk port, the table port and the pass table, the journal and the stream
unit take it, and it is left for each lane and each lift to take (R6, R8, R141, R186, R192). -/
def State.startReset (s : State) (restart : Option Tag) : State :=
  { s with
    trunk := s.trunk.stationReset restart
    routed := routedAfterReset s.routed
    table := s.table.stationReset
    arbiter := Arbiter.initial
    lanes := s.lanes.map fun x => { x with rowOps := [], resetsPending := x.resetsPending + 1 }
    lifts := s.lifts.map fun x => { x with resetsPending := x.resetsPending + 1 }
    journal := { s.journal with sendPosition := none, replayCursor := none }
    stream := { Stream.initial with raises := s.stream.raises } }

/-- STATION_RESET: the oldest station reset asked for starts (R192). -/
def execStationReset (s : State) : Result :=
  match s.trunk.restarts with
  | [] => .next s
  | restart :: rest => .next ({ s with trunk := { s.trunk with restarts := rest } }.startReset restart)

/-- CABINET_RESET_LINE: the line has been held asserted for 10 ms after a release of 10 ms, and this asks for one station reset (R192). -/
def execCabinetResetLine (s : State) : Result :=
  if s.resetLine.asserted && s.resetLine.armed && decide (s.resetLine.remaining = 0) then
    .next { s with resetLine := { s.resetLine with armed := false },
                   trunk := { s.trunk with restarts := s.trunk.restarts ++ [none] } }
  else .next s

/-- RESET_LINE_CHANGE: the line takes a level, which starts its 10 ms measure; an assertion after 10 ms of release arms it (R192). -/
def execResetLineChange (asserted : Bool) (s : State) : Result :=
  if asserted = s.resetLine.asserted then .next s
  else
    .next { s with resetLine :=
      { asserted := asserted, remaining := 10,
        armed := s.resetLine.armed || (!s.resetLine.asserted && decide (s.resetLine.remaining = 0)) } }

/-- RESTART: the request asks for a station reset; its reply is placed when the reset has started (R192). -/
def execRestart (s : State) : Result :=
  match s.takeRequest .trunkPort .restart with
  | none => .next s
  | some (r, s) =>
    .next { s with trunk := { s.trunk with
      restarts := s.trunk.restarts ++ [(r.place.bind s.trunk.place).map (·.tag)] } }

/-- LANE_STATION_RESET: a lane takes the station reset (R66, R104, R125). DESIGN CHOICE: what a lift has handed the lane and the lane has not taken
stays to be taken, as current too, until the lift's own reset drops it; R125 states no moment where the lane is first (log entry 51). -/
def execLaneStationReset (l : LaneNo) (s : State) : Result :=
  if (s.lane l).resetsPending = 0 then .next s
  else .next (s.laneEvent l fun _ x => x.stationReset)

/-- What a lane has handed a lift is discarded (R87). -/
def Lane.forget (i : LiftNo) (x : Lane) : Lane := { x with toLifts := x.toLifts.set i [] }

/-- LIFT_STATION_RESET: a lift monitor takes the station reset; what is in flight between the lanes and the lift is discarded, but changes of in-operation are
kept (R87). DESIGN CHOICE: that holds also of what a lane has handed, and of the answers to it, since it took the reset before the lift (log entry 51). -/
def execLiftStationReset (i : LiftNo) (s : State) : Result :=
  if (s.lift i).resetsPending = 0 then .next s
  else
    .next { (s.setLift i { s.lift i with
        occupancy := 0, reservations := [], holdQueue := [], answers := Vector.replicate 12 [],
        resetsPending := (s.lift i).resetsPending - 1 }) with
      lanes := s.lanes.map (Lane.forget i) }

end Sys2Proof.Machine
end

