-- ==== Sys2Proof/Machine/Rides.lean ====
section
/-! DEFINITION. What the ride journal takes: the records of its owners, JOURNAL_ACK, JOURNAL_REPLAY and JOURNAL_READ (chapter 7). -/
namespace Sys2Proof.Machine

/-- The records an owner has handed and the journal has not yet taken, oldest first (R126). -/
def State.recordsOf (s : State) (owner : RecordOwner) : List RecordBody :=
  match owner with
  | .passTable => s.table.records
  | .lane l => (s.lane l).records

/-- The records of an owner that remain to be taken. -/
def State.setRecords (s : State) (owner : RecordOwner) (rest : List RecordBody) : State :=
  match owner with
  | .passTable => { s with table := { s.table with records := rest } }
  | .lane l => s.setLane l { s.lane l with records := rest }

/-- The resort lift number of a record, read from the configuration of its lift as it stands when the journal takes the record (R127). -/
def State.resortLiftOf (s : State) (b : RecordBody) : Option Nat := b.lift.map fun i => (s.lift i).resortLift

/-- PASSAGE_RECORD_TAKE: the journal takes a passage-kind record (R126, R130). -/
def execPassageRecordTake (owner : RecordOwner) (s : State) : Result :=
  match s.recordsOf owner with
  | [] => .next s
  | b :: rest =>
    .next { s.setRecords owner rest with journal := s.journal.takeRide (s.resortLiftOf b) b }

/-- The reply code of an acknowledgement of a sequence that is not held (R135). -/
def Journal.ackCode (j : Journal) (q : Nat) : ReplyCode :=
  if q = 0 then .badSequence
  else if 1 ≤ sequenceDistance q j.reference ∧ sequenceDistance q j.reference ≤ 2147483648 then .okNoChange
  else .badSequence

/-- JOURNAL_ACK (R135, R137, R139). -/
def execJournalAck (s : State) : Result :=
  match s.takeRequest .journal .journalAck with
  | none => .next s
  | some (r, s) =>
    let q := field r.body 0 4
    if (s.journal.recordAt q).isSome then
      .next ({ s with journal := s.journal.free q }.answer r.place .ok (be (s.journal.free q).held 2))
    else .next (s.answer r.place (s.journal.ackCode q) [])

/-- JOURNAL_REPLAY (R136). -/
def execJournalReplay (s : State) : Result :=
  match s.takeRequest .journal .journalReplay with
  | none => .next s
  | some (r, s) =>
    let q := field r.body 0 4
    if q ≠ 0 ∧ (s.journal.recordAt q).isSome then
      .next ({ s with journal := { s.journal with replayCursor := some q } }.answer r.place .ok [])
    else .next (s.answer r.place .badSequence [])

/-- JOURNAL_READ of a lift, or of the station when the byte is FF; nothing is written (R140, R197). -/
def execJournalRead (s : State) : Result :=
  match s.takeRequest .journal .journalRead with
  | none => .next s
  | some (r, s) =>
    let lift := field r.body 0 1
    if lift = 0xFF then .next (s.answer r.place .ok (journalBytes s.journal none))
    else if h : lift < 4 then .next (s.answer r.place .ok (journalBytes s.journal (some ⟨lift, h⟩)))
    else .next (s.answer r.place .range [])

end Sys2Proof.Machine
end

