-- ==== Sys2Proof/Machine/Streams.lean ====
section
/-! DEFINITION. Table streams and the sweep (section 9.2). -/
namespace Sys2Proof.Machine

/-- The idle deadline becomes the timebase reading plus 30 s (R177, R179, R180, R182). -/
def Stream.restartDeadline (x : Stream) (now : Reading) : Stream :=
  { x with idleDeadline := some { setAt := now, duration := 30000 } }

/-- A request taken in OPEN restarts the idle deadline, whether it is then refused or not (R182). -/
def State.streamHeard (s : State) : State :=
  { s with stream := if s.stream.state = .opened then s.stream.restartDeadline s.timebase else s.stream }

/-- The stream unit takes its next request, while no chunk is being applied (R176, R182). -/
def State.takeStreamRequest (s : State) (kind : RequestKind) : Option (Routed × State) :=
  if s.stream.chunk.isSome then none else (s.takeRequest .streamUnit kind).map fun p => (p.1, p.2.streamHeard)

/-- The stream context as STREAM_OPEN sets it (R177). -/
def Stream.opening (x : Stream) (generation : Generation) (sweepFlag : Bool) (now : Reading) : Stream :=
  { state := .opened, generation := generation, sweepFlag := sweepFlag, expectedChunk := 0, rowsApplied := 0, rowsRefused := 0,
    firstRefused := none, sweepCursor := 0, sweepDeleted := 0, sweepKeptBusy := 0, sweepKeptRefunded := 0,
    idleDeadline := some { setAt := now, duration := 30000 }, chunk := none, raises := x.raises }

/-- STREAM_OPEN (R177). -/
def execStreamOpen (s : State) : Result :=
  match s.takeStreamRequest .streamOpen with
  | none => .next s
  | some (r, s) =>
    if !isFlag (field r.body 1 1) then .next (s.answer r.place .badField [])
    else if s.stream.state ≠ .idle then .next (s.answer r.place .streamBusy [s.stream.state.code])
    else
      .next ({ s with stream := s.stream.opening (byteField r.body 0) (decide (field r.body 1 1 = 1)) s.timebase }.answer
        r.place .ok [])

/-- The checks of STREAM_DATA in order: the refusal and its fields, if one fails (R178). -/
def Stream.refusesData (x : Stream) (number count : Nat) : Option (ReplyCode × List Byte) :=
  if count < 1 ∨ 16 < count then some (.badField, [])
  else match x.state with
  | .idle | .sweeping => some (.noStream, [])
  | .suspended => some (.suspended, [])
  | .opened => if number = x.expectedChunk then none else some (.outOfOrder, be x.expectedChunk 2)

/-- A chunk begins to be applied (R178). -/
def Stream.beginChunk (x : Stream) (place : Option Nat) (number : Nat) (rows : List (List Byte)) : Stream :=
  { x with idleDeadline := none,
           chunk := some { place := place, number := number, rows := rows, position := 0, refusedRows := [] } }

/-- STREAM_DATA (R178). -/
def execStreamData (s : State) : Result :=
  match s.takeStreamRequest .streamData with
  | none => .next s
  | some (r, s) =>
    match s.stream.refusesData (field r.body 0 2) (field r.body 2 1) with
    | some (code, fields) => .next (s.answer r.place code fields)
    | none =>
      .next { s with stream :=
        s.stream.beginChunk r.place (field r.body 0 2) (streamRows (field r.body 2 1) (r.body.drop 3)) }

/-- The chunk once its row at the position has been performed, with the rows that remain (R178). -/
def Chunk.performed (c : Chunk) (code : ReplyCode) (rest : List (List Byte)) : Chunk :=
  { c with rows := rest, position := c.position + 1,
           refusedRows := if code = .ok then c.refusedRows else c.refusedRows ++ [(c.position, code)] }

/-- The rows of a wholly performed chunk that were answered OK. -/
def Chunk.applied (c : Chunk) : Nat := c.position - c.refusedRows.length

/-- The first refused row of the stream, after a chunk (R179). -/
def Stream.firstRefusedAfter (x : Stream) (c : Chunk) : Option FirstRefused :=
  match x.firstRefused, c.refusedRows with
  | some f, _ => some f
  | none, (position, reason) :: _ => some { chunk := c.number, position := position, reason := reason }
  | none, [] => none

/-- The stream context after the outcome of a chunk (R179). -/
def Stream.chunkOutcome (x : Stream) (c : Chunk) (now : Reading) : Stream :=
  { x with rowsApplied := min 1048560 (x.rowsApplied + c.applied),
           rowsRefused := min 1048560 (x.rowsRefused + c.refusedRows.length),
           firstRefused := x.firstRefusedAfter c,
           expectedChunk := (x.expectedChunk + 1) % 65536,
           idleDeadline := some { setAt := now, duration := 30000 },
           chunk := none }

/-- The chunk goes on with its next row, or its outcome is taken and its reply handed (R178, R179). -/
def State.afterRow (s : State) (c : Chunk) : State :=
  match c.rows with
  | _ :: _ => { s with stream := { s.stream with chunk := some c } }
  | [] =>
    { s with stream := s.stream.chunkOutcome c s.timebase }.answer c.place .ok
      (chunkBytes (s.stream.chunkOutcome c s.timebase).expectedChunk c.number c.applied c.refusedRows)

/-- A stream row as the PASS_PUT it is performed as: its generation is the stream's (R178). -/
def Stream.rowForm (x : Stream) (row : List Byte) : PassForm := { passForm row with generation := x.generation }

/-- STREAM_CHUNK_ROW: the table port grants the stream unit, and the next row of the chunk is performed (R178, R179). -/
def execStreamChunkRow (s : State) : Result :=
  match s.grant .streamUnit, s.stream.chunk with
  | some s', some c =>
    (match c.rows with
    | [] => .next s
    | row :: rest =>
      .next ((s'.applyPut (s.stream.rowForm row)).2.afterRow
        (c.performed (s'.applyPut (s.stream.rowForm row)).1 rest)))
  | _, _ => .next s

/-- STREAM_SUSPEND (R180). -/
def execStreamSuspend (s : State) : Result :=
  match s.takeStreamRequest .streamSuspend with
  | none => .next s
  | some (r, s) =>
    if s.stream.state = .opened then
      .next ({ s with stream := { s.stream with state := .suspended, idleDeadline := none } }.answer r.place .ok [])
    else .next (s.answer r.place .wrongState [])

/-- STREAM_RESUME (R180). -/
def execStreamResume (s : State) : Result :=
  match s.takeStreamRequest .streamResume with
  | none => .next s
  | some (r, s) =>
    if s.stream.state = .suspended then
      .next ({ s with stream := Stream.restartDeadline { s.stream with state := .opened } s.timebase }.answer r.place .ok [])
    else .next (s.answer r.place .wrongState [])

/-- The raise of STREAM_DONE (R181, R184). -/
def Stream.doneRaise (x : Stream) : Raise :=
  { condition := .streamDone,
    detail := .streamDone x.generation x.rowsApplied x.rowsRefused x.firstRefused x.sweepDeleted x.sweepKeptBusy
      x.sweepKeptRefunded }

/-- The raise of STREAM_DONE of a stream closed without a sweep (R181). -/
def Stream.closedRaise (x : Stream) : Raise :=
  { condition := .streamDone
    detail := .streamDone x.generation x.rowsApplied x.rowsRefused x.firstRefused 0 0 0 }

/-- The stream becomes IDLE without a sweep, and STREAM_DONE is raised (R181). -/
def Stream.closeIdle (x : Stream) : Stream :=
  { x with state := .idle, idleDeadline := none, raises := x.raises ++ [x.closedRaise] }

/-- The sweep begins (R181). -/
def Stream.closeSweeping (x : Stream) : Stream :=
  { x with state := .sweeping, idleDeadline := none, sweepCursor := 0, sweepDeleted := 0, sweepKeptBusy := 0,
           sweepKeptRefunded := 0 }

/-- The stream context after STREAM_CLOSE, by the sweep flag (R181). -/
def Stream.close (x : Stream) : Stream := if x.sweepFlag then x.closeSweeping else x.closeIdle

/-- STREAM_CLOSE (R181). -/
def execStreamClose (s : State) : Result :=
  match s.takeStreamRequest .streamClose with
  | none => .next s
  | some (r, s) =>
    if s.stream.state = .opened ∨ s.stream.state = .suspended then
      .next ({ s with stream := s.stream.close }.answer r.place .ok (streamCloseBytes s.stream s.stream.close.state))
    else .next (s.answer r.place .wrongState [])

/-- STREAM_ABORT (R183). -/
def execStreamAbort (s : State) : Result :=
  match s.takeStreamRequest .streamAbort with
  | none => .next s
  | some (r, s) =>
    if s.stream.state = .idle then .next (s.answer r.place .noStream [])
    else
      .next ({ s with stream := { s.stream with state := .idle, idleDeadline := none } }.answer r.place .ok
        (streamAbortBytes s.stream))

/-- Whether the idle deadline runs and has expired (R117, R182). -/
def Stream.idleDue (x : Stream) (now : Reading) : Bool :=
  decide (x.state = .opened) && x.chunk.isNone && x.idleDeadline.any fun d => d.expired now

/-- The raise of STREAM_TIMEOUT (R182). -/
def Stream.timeoutRaise (x : Stream) : Raise :=
  { condition := .streamTimeout
    detail := .streamTimeout x.generation x.expectedChunk x.rowsApplied x.rowsRefused }

/-- The stream times out (R182). -/
def Stream.timeOut (x : Stream) : Stream :=
  { x with state := .idle, idleDeadline := none, raises := x.raises ++ [x.timeoutRaise] }

/-- STREAM_IDLE_EXPIRY (R182). -/
def execStreamIdleExpiry (s : State) : Result :=
  if s.stream.idleDue s.timebase then .next { s with stream := s.stream.timeOut } else .next s

/-! ### The sweep (R184) -/

/-- The sweep step on the slot under the cursor, before the cursor moves (R184). -/
def State.sweepSlot (s : State) : State :=
  let x := s.stream
  match slotAt s.table.slots x.sweepCursor with
  | none => s
  | some row =>
    if row.generation = x.generation then s
    else if row.pendingLane.isSome then { s with stream := { x with sweepKeptBusy := x.sweepKeptBusy + 1 } }
    else if row.refund.isSome then { s with stream := { x with sweepKeptRefunded := x.sweepKeptRefunded + 1 } }
    else { s.deleteRow x.sweepCursor row with stream := { x with sweepDeleted := x.sweepDeleted + 1 } }

/-- The cursor moves on; after the step on slot 65,535 the sweep ends and STREAM_DONE is raised (R184). -/
def Stream.advance (x : Stream) : Stream :=
  if x.sweepCursor < 65535 then { x with sweepCursor := x.sweepCursor + 1 }
  else { x with state := .idle, sweepCursor := 0, raises := x.raises ++ [x.doneRaise] }

/-- SWEEP_STEP: the table port grants the sweep, and the slot under its cursor is examined (R184). -/
def execSweepStep (s : State) : Result :=
  match s.grant .sweep with
  | none => .next s
  | some s => .next { s.sweepSlot with stream := s.sweepSlot.stream.advance }

end Sys2Proof.Machine
end

