-- ==== Sys2Proof/Machine/Taps.lean ====
section
/-! DEFINITION. Taps: the TAP frame, the waiting tap, and the validation row operation with its ordered checks (chapter 5). -/
namespace Sys2Proof.Machine

/-- TAP: a TAP frame that passes R49 is handed to tap handling (R62, R88). -/
def execTap (l : LaneNo) (frame : List Byte) (s : State) : Result :=
  match (s.lane l).hears frame with
  | some (.tap uid) => .next (s.laneEvent l fun _ x => x.tapArrives uid)
  | some .bad => .next (s.dropFrame l)
  | some (.key _) | none => .next s

/-- Taking a tap now would hand a validation (R91). -/
def Lane.wouldValidate (x : Lane) : Bool := decide (x.effective = .inService) && x.admission.isNone

/-- The oldest tap emptied from the waiting slot is taken by R89, as the lane context then stands (R88). One that would be validated while another validation
is in flight waits in the slot, and gives way there to a newer tap (log entry 17). -/
def Lane.takeEmptied (x : Lane) : Lane :=
  match x.emptiedTaps with
  | [] => x
  | uid :: rest =>
    let y := { x with emptiedTaps := rest }
    if y.validationInFlight && y.wouldValidate then { y with waitingTap := some (y.waitingTap.getD uid) }
    else y.takeTap uid

/-- WAITING_TAP_TAKE (R88). -/
def execWaitingTapTake (l : LaneNo) (s : State) : Result :=
  if (s.lane l).emptiedTaps = [] then .next s else .next (s.laneEvent l fun _ x => x.takeEmptied)

/-! ### The ordered checks (R93 to R98) -/

/-- Check 5: valid-from and valid-to of the product, and the row's expiry day, bound the current day (R95). -/
def validOn (p : Product) (row : PassRow) (d : Nat) : Bool :=
  decide (p.validFrom ≤ d) && decide (d ≤ p.validTo) && row.expiryDay.all fun e => decide (d ≤ e)

/-- Check 8: whether the re-ride interval holds the pass off (R97). A second of day below the stored one counts as no time elapsed. -/
def tooSoon (p : Product) (row : PassRow) (lift : LiftNo) (d second : Nat) : Bool :=
  match row.lastPassage with
  | none => false
  | some q =>
    decide (q.day = d) && decide (q.lift = lift) && decide (0 < p.rerideInterval) && decide (second - q.second < p.rerideInterval)

/-- Check 9: whether a MULTI_DAY pass has the current day, or a day left to consume (R98). -/
def dayLeft (p : Product) (row : PassRow) (d : Nat) : Bool :=
  match p.kind with
  | .season => true
  | .multiDay => row.consumed.contains d || decide (row.consumed.length < p.dayCount)

/-- Checks 2 to 9 on the row found, in order; absent when all pass (R93). -/
def State.denialOf (s : State) (row : PassRow) (lift : LiftNo) : Option DenyReason :=
  let p := s.product row.product
  match row.status with
  | .blocked => some .blocked
  | .retired => some .retired
  | .active =>
    if !p.isDefined then some .noProduct
    else match s.calendar.currentDay with
    | none => some .notValidToday
    | some d =>
      if !validOn p row d then some .notValidToday
      else if !p.liftMask.getLsbD (s.lift lift).resortLift then some .wrongLift
      else if row.pendingLane.isSome then some .passInUse
      else if tooSoon p row lift d s.calendar.secondOfDay then some .tooSoon
      else if !dayLeft p row d then some .noDaysLeft
      else none

/-- The decision of the validation unit on a tap (R93): the slot and row granted, or the deny reason. -/
def State.decision (s : State) (uid : Uid) (lift : LiftNo) : Except DenyReason (Nat × PassRow) :=
  match lookup s.table.slots uid with
  | none => .error .unknownPass
  | some (slot, row) =>
    match s.denialOf row lift with
    | some reason => .error reason
    | none => .ok (slot, row)

/-- The admission a grant creates (R99), before its first place request. -/
def newAdmission (l : LaneNo) (lift : LiftNo) (slot : Nat) (uid : Uid) (headcount : Nat) : Admission :=
  { slot := slot, uid := uid, lane := l, lift := lift, phase := none, headsTotal := headcount, headsPassed := 0, request := 0,
    deadline := none, holdStart := none }

/-- The lane's part of a grant: counters, the admission and its first place request, and the decision taken (R99, R100). -/
def Lane.grant (env : LaneEnv) (l : LaneNo) (lift : LiftNo) (slot : Nat) (uid : Uid) (headcount : Nat) (x : Lane) : Lane :=
  (Lane.requestPlace env
    (x.count fun c => { c with taps := raiseCount c.taps, grants := raiseCount c.grants })
    (newAdmission l lift slot uid headcount)).decisionTaken

/-- The lane's part of a decision that denies (R100, R101). -/
def State.denyAt (s : State) (l : LaneNo) (reason : DenyReason) : State :=
  s.laneEvent l fun _ x => (x.deny reason).decisionTaken

/-- The row's and the lane's part of a grant (R99). -/
def State.grantAt (s : State) (l : LaneNo) (lift : LiftNo) (slot : Nat) (uid : Uid) (row : PassRow) : State :=
  (s.writeRow slot { row with pendingLane := some l }).laneEvent l fun env x => x.grant env l lift slot uid row.headcount

/-- The ordered checks for an IN_SERVICE lane, which always has a served lift (R92, R93, R99). -/
def State.validateServed (s : State) (l : LaneNo) (uid : Uid) : State :=
  match (s.lane l).servedLift with
  | none => s.denyAt l .noLift
  | some lift =>
    match s.decision uid lift with
    | .error reason => s.denyAt l reason
    | .ok (slot, row) => s.grantAt l lift slot uid row

/-- The validation row operation: the lane is checked again (R92), then the ordered checks decide (R93, R99). -/
def State.validate (s : State) (l : LaneNo) (uid : Uid) : State :=
  if (s.lane l).effective = .inService then s.validateServed l uid
  else match (s.lane l).effective.denial with
  | some reason => s.denyAt l reason
  | none => s.laneEvent l fun _ x => x.decisionTaken

/-- VALIDATION: the table port grants the lane's validation row operation, once the lane has taken every cancellation handed to it before (R12, R92). -/
def execValidation (l : LaneNo) (s : State) : Result :=
  if s.table.cancellations[l] ≠ [] then .next s
  else match s.takeRowOp l with
  | some (.validate uid, s) => .next (s.validate l uid)
  | _ => .next s

end Sys2Proof.Machine
end

