-- ==== Sys2Proof/Machine/Trunk.lean ====
section
/-! DEFINITION. The trunk port: receiving, routing, transmitting, raises of notice conditions, STATUS, CONFIG, NOTICE_MASK and NOTICE_ACK (chapter 10). -/
namespace Sys2Proof.Machine

/-! ### Frames in -/

/-- A well-formed frame joins the receive queue, or is dropped and counted when 32 are held (R188). -/
def TrunkPort.receive (t : TrunkPort) (f : RxFrame) : TrunkPort :=
  if t.rxQueue.length < 32 then { t with rxQueue := t.rxQueue ++ [f] }
  else
    { t with rxOverflow := bump 65535 t.rxOverflow,
             raises := t.raises ++ [{ condition := .rxOverflow, detail := .receiveOverflow (bump 65535 t.rxOverflow) }] }

/-- TRUNK_FRAME_RECEIVE (R187, R188). -/
def execTrunkFrameReceive (frame : List Byte) (s : State) : Result :=
  match parseTrunkFrame frame with
  | none => .next { s with trunk := { s.trunk with malformed := bump 65535 s.trunk.malformed } }
  | some f => .next { s with trunk := s.trunk.receive f }

/-- The place reserved for a request of this kind, awaiting the answers of `awaiting` owners. -/
def newPlace (number : Nat) (kind : RequestKind) (tag : Tag) (awaiting : Nat) : ReservedPlace :=
  { number := number, kind := kind, tag := tag, awaiting := awaiting, changed := false, flagged := false,
    stored := { passageWindow := 0, holdTimeout := 0, minimumPayout := 0, closureThreshold := 0, lowMark := 0, highMark := 0 } }

/-- A place is reserved and filled at once: the trunk port answers by itself (R187, R190). -/
def TrunkPort.answerAtOnce (t : TrunkPort) (r : Reply) : TrunkPort := { t with filled := t.filled ++ [r] }

/-- A request is routed: a place is reserved and the request handed to its owners (R188); a frame of unknown kind, a request other than STATUS while
STARTING, and a request that names no lane or lift of the part are answered at once (R187, R190). DESIGN CHOICE: a STARTING answer carries 0 in every field of its
kind, the UID and the day of a USAGE_MERGE among them (log entry 18). -/
def State.route (s : State) (f : RxFrame) : State :=
  match RequestKind.ofByte f.kind with
  | none => { s with trunk := s.trunk.answerAtOnce { kind := 0xFF, tag := f.tag, body := [ReplyCode.unknownKind.code] } }
  | some kind =>
    let place (n : Nat) : ReservedPlace := newPlace s.trunk.freshPlace kind f.tag n
    if s.trunk.partStatus = .starting ∧ kind ≠ .status then
      { s with trunk := s.trunk.answerAtOnce ((place 1).reply .starting []) }
    else
      match kind.owners f.body with
      | .error code => { s with trunk := s.trunk.answerAtOnce ((place 1).reply code []) }
      | .ok owners =>
        { s with trunk := { s.trunk with reserved := s.trunk.reserved ++ [place owners.length] },
                 routed := s.routed ++ owners.map fun o =>
                   { owner := o, kind := kind, body := f.body, place := some s.trunk.freshPlace } }

/-- REQUEST_ROUTE: the request at the head of the receive queue is routed once a reply place is free (R188). -/
def execRequestRoute (s : State) : Result :=
  match s.trunk.rxQueue with
  | [] => .next s
  | f :: rest =>
    if s.trunk.placesUsed < 16 then .next ({ s with trunk := { s.trunk with rxQueue := rest } }.route f)
    else .next s

/-! ### Frames out -/

/-- The frame in the transmitter has been sent: its reply place becomes free, or its entry leaves the pending notice list (R188, R189). -/
def TrunkPort.sent (t : TrunkPort) : TrunkPort :=
  match t.transmitter with
  | none => t
  | some x =>
    match x.occupies with
    | .notice c => { t with transmitter := none, pendingNotices := t.pendingNotices.eraseP fun n => n.condition = c }
    | .replyPlace | .nothing => { t with transmitter := none }

/-- A frame begins to go out, and is sent whole (R189). -/
def TrunkPort.send (t : TrunkPort) (frame : List Byte) (occupies : Occupied) : TrunkPort :=
  { t with transmitter := some { frame := frame, occupies := occupies } }

/-- The transmitter, free, is given the oldest filled reply, else the oldest pending NOTICE, else the record the journal offers (R133, R134, R189). -/
def State.transmitNext (s : State) : State :=
  match s.trunk.filled with
  | r :: rest =>
    { s with trunk := TrunkPort.send { s.trunk with filled := rest } (trunkFrame r.kind r.tag r.body) .replyPlace }
  | [] =>
    match s.trunk.pendingNotices with
    | n :: _ =>
      { s with
        trunk := s.trunk.send (trunkFrame 0xF0 (Config.unsolicitedTag s.freeIndex) (noticeBody n)) (.notice n.condition)
        freeIndex := s.freeIndex + 1 }
    | [] =>
      match s.journal.offer with
      | none => s
      | some (r, replay, journal) =>
        { s with
          trunk := s.trunk.send (trunkFrame 0xF1 (Config.unsolicitedTag s.freeIndex) (recordBody r replay)) .nothing
          journal := journal
          freeIndex := s.freeIndex + 1 }

/-- TRANSMIT_FRAME: the transmitter becomes free and is given its next frame (R189). -/
def execTransmitFrame (s : State) : Result :=
  .next (State.transmitNext { s with trunk := s.trunk.sent })

/-! ### Raises -/

/-- The raises a block has handed and the trunk port has not yet taken, oldest first. -/
def State.raisesOf (s : State) (source : RaiseSource) : List Raise :=
  match source with
  | .lane l => (s.lane l).raises
  | .journal => s.journal.raises
  | .passTable => s.table.raises
  | .streamUnit => s.stream.raises
  | .trunkPort => s.trunk.raises

/-- The raises of a block that remain to be taken. -/
def State.setRaises (s : State) (source : RaiseSource) (rest : List Raise) : State :=
  match source with
  | .lane l => s.setLane l { s.lane l with raises := rest }
  | .journal => { s with journal := { s.journal with raises := rest } }
  | .passTable => { s with table := { s.table with raises := rest } }
  | .streamUnit => { s with stream := { s.stream with raises := rest } }
  | .trunkPort => { s with trunk := { s.trunk with raises := rest } }

/-- The trunk port takes a raise of which the block has been relieved (R194). -/
def State.latchRaise (s : State) (r : Raise) : State := { s with trunk := s.trunk.takeRaise r }

/-- NOTICE_RAISE: the trunk port takes a raise (R194). -/
def execNoticeRaise (source : RaiseSource) (s : State) : Result :=
  match s.raisesOf source with
  | [] => .next s
  | r :: rest => .next ((s.setRaises source rest).latchRaise r)

/-! ### STATUS -/

/-- The ten conditions, in the order of their codes (R194). -/
def allConditions : List Condition :=
  [.tablesLost, .restarted, .laneFault, .laneDetached, .journalHigh, .journalOverflow, .rxOverflow, .overconsumed,
   .streamDone, .streamTimeout]

/-- The state of the current day's record: the day state, absent when there is no current day (R28). -/
def Calendar.dayState (c : Calendar) : Option DayState :=
  c.currentDay.bind fun d => c.days[d]?.map (·.state)

/-- The STATUS reply (R191): vendor code 3E1A, part code 2460, revision C, and what stands at each owner. DESIGN CHOICE: a latch byte is 1 for latched and 0 for clear,
where R191 and R197 do not say which of the two is 1 (log entry 18). -/
def statusBytes (s : State) : List Byte :=
  be 0x3E1A 2 ++ be 0x2460 2 ++ be 0x43 1 ++ [s.trunk.partStatus.code] ++ optionalBytes s.calendar.currentDay 1
    ++ optionalBytes (s.calendar.dayState.map (·.code.toNat)) 1 ++ be s.calendar.secondOfDay 4
    ++ (allConditions.map fun c => [flagByte (s.trunk.condition c).latched, flagByte (s.trunk.condition c).masked]).flatten
    ++ be s.trunk.malformed 2 ++ be s.trunk.rxOverflow 2 ++ be s.table.usedSlots 4 ++ be s.journal.held 2
    ++ [s.stream.state.code]

/-- STATUS: answered in every part status; it writes nothing (R191). -/
def execStatus (s : State) : Result :=
  match s.takeRequest .trunkPort .status with
  | none => .next s
  | some (r, s) => .next (s.answer r.place .ok (statusBytes s))

/-! ### CONFIG -/

/-- The owners to which the trunk port hands the settings (R193). -/
def settingOwners : List Owner := laneNumbers.map .lane ++ [.refundUnit, .calendar, .journal]

/-- The reply place of a request now awaits the answers of `n` owners. -/
def TrunkPort.awaitOwners (t : TrunkPort) (place : Option Nat) (n : Nat) : TrunkPort :=
  { t with reserved := t.reserved.map fun p => if place = some p.number then { p with awaiting := n } else p }

/-- The trunk port takes a CONFIG and hands each setting to its owner (R193). DESIGN CHOICE: each setting joins last in the one first-in first-out list of
routed requests, so behind those routed to the same owner before it, where R188 and R193 state no order of the two (log entry 49). -/
def State.handSettings (s : State) (r : Routed) : State :=
  { s with
    trunk := s.trunk.awaitOwners r.place settingOwners.length
    routed := s.routed ++ settingOwners.map fun o => { r with owner := o } }

/-- A lane takes the passage window and the hold timeout, clamped (R106). -/
def State.laneSettings (s : State) (l : LaneNo) (r : Routed) : State :=
  let given := settingsForm r.body
  let window := clamp 2 30 given.passageWindow
  let timeout := clamp 5 60 given.holdTimeout
  let x := s.lane l
  (s.setLane l { x with passageWindow := window, holdTimeout := timeout }).jointAnswer r.place
    (x.passageWindow != window || x.holdTimeout != timeout)
    (window != given.passageWindow || timeout != given.holdTimeout)
    fun st => { st with passageWindow := window, holdTimeout := timeout }

/-- The refund unit takes the minimum payout, clamped (R143). -/
def State.payoutSetting (s : State) (r : Routed) : State :=
  let given := (settingsForm r.body).minimumPayout
  let value := clamp 0 9999 given
  { s with minimumPayout := value }.jointAnswer r.place (s.minimumPayout != value) (value != given)
    fun st => { st with minimumPayout := value }

/-- The calendar takes the closure threshold, clamped (R36). -/
def State.thresholdSetting (s : State) (r : Routed) : State :=
  let given := (settingsForm r.body).closureThreshold
  let value := clamp 0 1440 given
  { s with calendar := { s.calendar with closureThreshold := value } }.jointAnswer r.place
    (s.calendar.closureThreshold != value) (value != given) fun st => { st with closureThreshold := value }

/-- The journal takes the two water marks, clamped (R138). -/
def State.markSettings (s : State) (r : Routed) : State :=
  let given := settingsForm r.body
  let journal := s.journal.setMarks given.lowMark given.highMark
  { s with journal := journal }.jointAnswer r.place
    (s.journal.lowMark != journal.lowMark || s.journal.highMark != journal.highMark)
    (journal.lowMark != given.lowMark || journal.highMark != given.highMark)
    fun st => { st with lowMark := journal.lowMark, highMark := journal.highMark }

/-- CONFIG: taken by the trunk port, and then, each as an arrival of its own, by the owner of each setting (R193). -/
def execConfig (owner : ConfigOwner) (s : State) : Result :=
  match owner with
  | .trunkPort =>
    (match s.takeRequest .trunkPort .config with
    | none => .next s
    | some (r, s) => .next (s.handSettings r))
  | .lane l =>
    (match s.takeRequest (.lane l) .config with
    | none => .next s
    | some (r, s) => .next (s.laneSettings l r))
  | .refundUnit =>
    (match s.takeRequest .refundUnit .config with
    | none => .next s
    | some (r, s) => .next (s.payoutSetting r))
  | .calendar =>
    (match s.takeRequest .calendar .config with
    | none => .next s
    | some (r, s) => .next (s.thresholdSetting r))
  | .journal =>
    (match s.takeRequest .journal .config with
    | none => .next s
    | some (r, s) => .next (s.markSettings r))

/-! ### NOTICE_MASK and NOTICE_ACK -/

/-- One mask takes its new value; a latched condition that goes from masked to allowed gets a NOTICE with its stored detail (R195). -/
def TrunkPort.setMask (t : TrunkPort) (c : Condition) (masked : Bool) : TrunkPort :=
  let x := t.condition c
  let stored := t.setCondition c { x with masked := masked }
  if x.masked && !masked && x.latched then stored.placeNotice { condition := c, detail := x.detail } else stored

/-- Bit n of the body stands for condition n; a set flag means masked (R195). DESIGN CHOICE: the NOTICEs of several conditions unmasked together join the list by rising
code, an order R195 does not state (log entry 46). -/
def TrunkPort.setMasks (t : TrunkPort) (flags : Nat) : TrunkPort :=
  allConditions.foldl (fun t c => t.setMask c (flags.testBit c.index.val)) t

/-- NOTICE_MASK (R195). -/
def execNoticeMask (s : State) : Result :=
  match s.takeRequest .trunkPort .noticeMask with
  | none => .next s
  | some (r, s) =>
    let flags := field r.body 0 2
    if 1024 ≤ flags then .next (s.answer r.place .badField [])
    else if (allConditions.all fun c => (s.trunk.condition c).masked == flags.testBit c.index.val) then
      .next (s.answer r.place .okNoChange [])
    else .next ({ s with trunk := s.trunk.setMasks flags }.answer r.place .ok [])

/-- Whether the cause of a condition is still present when it is acknowledged: a fault latch at some lane, or a held count above the low mark (R139,
R196). -/
def State.causePresent (s : State) (c : Condition) : Bool :=
  match c with
  | .laneFault => laneNumbers.any fun l => (s.lane l).actuationFail || (s.lane l).stuckOpen
  | .journalHigh => decide (s.journal.lowMark < s.journal.held)
  | _ => false

/-- NOTICE_ACK (R196). -/
def execNoticeAck (s : State) : Result :=
  match s.takeRequest .trunkPort .noticeAck with
  | none => .next s
  | some (r, s) =>
    match conditionOf (field r.body 0 1) with
    | none => .next (s.answer r.place .badField [])
    | some c =>
      if !(s.trunk.condition c).latched then .next (s.answer r.place .okNoChange [])
      else if s.causePresent c then .next (s.answer r.place .stillPresent [])
      else
        .next ({ s with trunk := s.trunk.setCondition c { s.trunk.condition c with latched := false } }.answer r.place .ok [])

end Sys2Proof.Machine
end

