-- ==== Sys2Proof/Machine/Dispatch.lean ====
section
/-! DEFINITION. The meaning of every command: one arm for each constructor of Instr, in the table's order. -/
namespace Sys2Proof.Machine

def exec (i : Instr) (s : State) : Host.Outcome State Fault Refusal :=
  match i with
  | .powerOnReset => Sys2Proof.Machine.execPowerOnReset s
  | .memoryClearDone => Sys2Proof.Machine.execMemoryClearDone s
  | .stationReset => Sys2Proof.Machine.execStationReset s
  | .cabinetResetLine => Sys2Proof.Machine.execCabinetResetLine s
  | .laneStationReset lane => Sys2Proof.Machine.execLaneStationReset lane s
  | .liftStationReset lift => Sys2Proof.Machine.execLiftStationReset lift s
  | .trunkFrameReceive frame => Sys2Proof.Machine.execTrunkFrameReceive frame s
  | .requestRoute => Sys2Proof.Machine.execRequestRoute s
  | .transmitFrame => Sys2Proof.Machine.execTransmitFrame s
  | .noticeRaise source => Sys2Proof.Machine.execNoticeRaise source s
  | .passPut => Sys2Proof.Machine.execPassPut s
  | .passSetStatus => Sys2Proof.Machine.execPassSetStatus s
  | .passDelete => Sys2Proof.Machine.execPassDelete s
  | .passRead => Sys2Proof.Machine.execPassRead s
  | .usageMerge => Sys2Proof.Machine.execUsageMerge s
  | .productPut => Sys2Proof.Machine.execProductPut s
  | .productClear => Sys2Proof.Machine.execProductClear s
  | .productRead => Sys2Proof.Machine.execProductRead s
  | .protectSet => Sys2Proof.Machine.execProtectSet s
  | .serviceKeyLineChange asserted => Sys2Proof.Machine.execServiceKeyLineChange asserted s
  | .serviceKeyDebounceExpiry => Sys2Proof.Machine.execServiceKeyDebounceExpiry s
  | .dayOpen => Sys2Proof.Machine.execDayOpen s
  | .dayClose => Sys2Proof.Machine.execDayClose s
  | .time => Sys2Proof.Machine.execTime s
  | .calendarPut => Sys2Proof.Machine.execCalendarPut s
  | .calendarRead => Sys2Proof.Machine.execCalendarRead s
  | .countAdvance => Sys2Proof.Machine.execCountAdvance s
  | .laneDayOpen lane => Sys2Proof.Machine.execLaneDayOpen lane s
  | .laneDayClose lane => Sys2Proof.Machine.execLaneDayClose lane s
  | .journalDayOpen => Sys2Proof.Machine.execJournalDayOpen s
  | .protectionDayOpen => Sys2Proof.Machine.execProtectionDayOpen s
  | .laneRelease lane => Sys2Proof.Machine.execLaneRelease lane s
  | .laneLock lane => Sys2Proof.Machine.execLaneLock lane s
  | .laneFaultClear lane => Sys2Proof.Machine.execLaneFaultClear lane s
  | .laneConfig lane => Sys2Proof.Machine.execLaneConfig lane s
  | .laneRead lane => Sys2Proof.Machine.execLaneRead lane s
  | .presentLineChange lane present => Sys2Proof.Machine.execPresentLineChange lane present s
  | .presenceDebounceExpiry lane => Sys2Proof.Machine.execPresenceDebounceExpiry lane s
  | .latchSenseChange lane released => Sys2Proof.Machine.execLatchSenseChange lane released s
  | .driveWindowExpiry lane => Sys2Proof.Machine.execDriveWindowExpiry lane s
  | .releaseWatchExpiry lane => Sys2Proof.Machine.execReleaseWatchExpiry lane s
  | .tap lane frame => Sys2Proof.Machine.execTap lane frame s
  | .key lane frame => Sys2Proof.Machine.execKey lane frame s
  | .laneFrameDrop lane frame => Sys2Proof.Machine.execLaneFrameDrop lane frame s
  | .waitingTapTake lane => Sys2Proof.Machine.execWaitingTapTake lane s
  | .validation lane => Sys2Proof.Machine.execValidation lane s
  | .showSend lane receiving => Sys2Proof.Machine.execShowSend lane receiving s
  | .rotation lane active => Sys2Proof.Machine.execRotation lane active s
  | .passageCommit lane => Sys2Proof.Machine.execPassageCommit lane s
  | .headRecord lane => Sys2Proof.Machine.execHeadRecord lane s
  | .closingRowOperation lane => Sys2Proof.Machine.execClosingRowOperation lane s
  | .passageWindowExpiry lane => Sys2Proof.Machine.execPassageWindowExpiry lane s
  | .holdTimeoutExpiry lane => Sys2Proof.Machine.execHoldTimeoutExpiry lane s
  | .passStatusCancellation lane => Sys2Proof.Machine.execPassStatusCancellation lane s
  | .placeRequest lane lift => Sys2Proof.Machine.execPlaceRequest lane lift s
  | .place lane lift => Sys2Proof.Machine.execPlace lane lift s
  | .hold lane lift => Sys2Proof.Machine.execHold lane lift s
  | .refusal lane lift => Sys2Proof.Machine.execRefusal lane lift s
  | .liftPassage lane lift => Sys2Proof.Machine.execLiftPassage lane lift s
  | .release lane lift => Sys2Proof.Machine.execRelease lane lift s
  | .leave lane lift => Sys2Proof.Machine.execLeave lane lift s
  | .liftFreePassage lane lift => Sys2Proof.Machine.execLiftFreePassage lane lift s
  | .liftIntrusion lane lift => Sys2Proof.Machine.execLiftIntrusion lane lift s
  | .carrierPulse lift active => Sys2Proof.Machine.execCarrierPulse lift active s
  | .liftLineChange lift lsa lsb => Sys2Proof.Machine.execLiftLineChange lift lsa lsb s
  | .liftDebounceExpiry lift => Sys2Proof.Machine.execLiftDebounceExpiry lift s
  | .liftConfig lift => Sys2Proof.Machine.execLiftConfig lift s
  | .liftRead lift => Sys2Proof.Machine.execLiftRead lift s
  | .inOperationChange lane lift => Sys2Proof.Machine.execInOperationChange lane lift s
  | .passageRecordTake owner => Sys2Proof.Machine.execPassageRecordTake owner s
  | .journalAck => Sys2Proof.Machine.execJournalAck s
  | .journalReplay => Sys2Proof.Machine.execJournalReplay s
  | .journalRead => Sys2Proof.Machine.execJournalRead s
  | .refundQuote => Sys2Proof.Machine.execRefundQuote s
  | .refundRetire => Sys2Proof.Machine.execRefundRetire s
  | .streamOpen => Sys2Proof.Machine.execStreamOpen s
  | .streamData => Sys2Proof.Machine.execStreamData s
  | .streamChunkRow => Sys2Proof.Machine.execStreamChunkRow s
  | .streamSuspend => Sys2Proof.Machine.execStreamSuspend s
  | .streamResume => Sys2Proof.Machine.execStreamResume s
  | .streamClose => Sys2Proof.Machine.execStreamClose s
  | .streamAbort => Sys2Proof.Machine.execStreamAbort s
  | .streamIdleExpiry => Sys2Proof.Machine.execStreamIdleExpiry s
  | .sweepStep => Sys2Proof.Machine.execSweepStep s
  | .status => Sys2Proof.Machine.execStatus s
  | .restart => Sys2Proof.Machine.execRestart s
  | .config owner => Sys2Proof.Machine.execConfig owner s
  | .noticeMask => Sys2Proof.Machine.execNoticeMask s
  | .noticeAck => Sys2Proof.Machine.execNoticeAck s
  | .resetLineChange asserted => Sys2Proof.Machine.execResetLineChange asserted s
  | .showSent lane => Sys2Proof.Machine.execShowSent lane s

end Sys2Proof.Machine
end

