-- ==== Sys2Proof/Machine/Timers.lean ====
section
/-! DEFINITION. One millisecond of the timebase at every block that measures time on it (section 0.7; log entry 2). -/
namespace Sys2Proof.Machine

/-- One millisecond at a lift's debounce and its 20 ms measure (R70, R72). -/
def Lift.tick (x : Lift) : Lift :=
  { x with lineState := { x.lineState with remaining := countDown x.lineState.remaining },
           carrierLine := x.carrierLine.tick }

/-- One millisecond at the service key (R23). -/
def Debounce.tick {α : Type} (d : Debounce α) : Debounce α := { d with remaining := countDown d.remaining }

/-- One millisecond at the cabinet reset line (R192). -/
def ResetLine.tick (x : ResetLine) : ResetLine := { x with remaining := x.remaining - 1 }

/-- The sub-second phase runs on by the crystal's cycles in this millisecond, a free value (R30; log entry 4). -/
def Calendar.tick (c : Calendar) (now : Reading) : Calendar :=
  { c with subSecondPhase := c.subSecondPhase + (Config.crystalCyclesIn now).toNat }

/-- One millisecond passes: the timebase advances, wrapping, and every measure of time on it runs on (section 0.7). -/
def State.tick (s : State) : State :=
  { s with
    timebase := s.timebase + 1
    lanes := s.lanes.map Lane.tick
    lifts := s.lifts.map Lift.tick
    serviceKey := s.serviceKey.tick
    resetLine := s.resetLine.tick
    calendar := s.calendar.tick s.timebase }

end Sys2Proof.Machine
end

