-- ==== Sys2Proof/Safety.lean ====
section
/-! DEFINITION. The terms in which claims are stated: what stands waiting for a command to take it; where the fields of a reply or a frame stand; the laws the
manual says the part keeps; what a command needs and what it may change. -/
namespace Sys2Proof.Machine

/-! ### What waits for a command -/

/-- The next request at an owner is `r`, of this kind (R188). -/
abbrev State.Routes (s : State) (o : Owner) (k : RequestKind) (r : Routed) : Prop := s.nextFor o = some r ∧ r.kind = k

/-- The table port's next grant is to the trunk owners, and serves `r`, of this kind (R6). -/
abbrev State.Presents (s : State) (k : RequestKind) (r : Routed) : Prop :=
  s.nextGrant = some .trunkOwners ∧ presentedIn s.routed [] = some r ∧ r.kind = k

/-- The state once the table port has granted the trunk owners and the request has been taken. -/
def State.served (s : State) (r : Routed) : State := (s.granted .trunkOwners).dropNextFor r.owner

/-- The table port's next grant is to a lane, whose first row operation is `op` (R6, R114). -/
abbrev State.RowOpNext (s : State) (l : LaneNo) (op : RowOp) : Prop :=
  s.nextGrant = some (.lane l) ∧ (s.lane l).rowOps.head? = some op

/-- The state once the table port has granted the lane and the row operation has left its list. -/
def State.rowOpTaken (s : State) (l : LaneNo) : State := (s.granted (.lane l)).dropRowOp l

/-- The next request at the stream unit is `r`, of this kind, and no chunk is being applied (R176). -/
abbrev State.StreamAsks (s : State) (k : RequestKind) (r : Routed) : Prop :=
  s.stream.chunk = none ∧ s.nextFor .streamUnit = some r ∧ r.kind = k

/-- A REFUND_REQUEST that fails check 1 of R145 is the next at the refund unit (R145). -/
abbrev State.BadRefund (s : State) (r : Routed) : Prop := s.Routes .refundUnit .refundRequest r ∧ refundFormOk r.body = false

/-- A REFUND_REQUEST is to be served: refused by its form, or presented at the table port (R142, R145). -/
def State.AsksRefund (s : State) (r : Routed) : Prop :=
  s.BadRefund r ∨ ((∀ q, ¬ s.BadRefund q) ∧ s.Presents .refundRequest r)

/-- A lane's row-operation list once it has handed these operations: from the port's own reset event until the lane has taken the same reset, the port discards them (R8, R114). -/
def State.rowOpsWith (s : State) (l : LaneNo) (ops : List RowOp) : List RowOp :=
  if (s.lane l).resetsPending = 0 then (s.lane l).rowOps ++ ops else (s.lane l).rowOps

/-- What a lane has handed the lifts once it has handed one of them these place requests, passages, releases or leaves: from the lift's own reset event until the lane has taken the same
reset, the lift discards them (R87). -/
def State.messagesWith (s : State) (l : LaneNo) (i : LiftNo) (ms : List LaneMessage) : Vector (List LaneMessage) 4 :=
  if (s.lift i).resetsPending < (s.lane l).resetsPending then (s.lane l).toLifts
  else (s.lane l).toLifts.set i ((s.lane l).toLifts[i] ++ ms)

/-- What a lane has handed the lifts once it has told its served lift, if it has one, of a free passage or an intrusion (R61). -/
def Lane.servedTold (x : Lane) (m : LaneMessage) : Vector (List LaneMessage) 4 :=
  match x.servedLift with
  | some i => x.toLifts.set i (x.toLifts[i] ++ [m])
  | none => x.toLifts

/-! ### Where the fields of a reply or a frame stand (section 10.7, R197) -/

/-- The `len` bytes from an offset spell the number, most significant byte first; of a number too great for them, its last bytes. -/
def numberAt (bytes : List Byte) (offset len n : Nat) : Prop := field bytes offset len = n % 256 ^ len

/-- The byte of a yes or no. -/
def flagAt (bytes : List Byte) (offset : Nat) (b : Bool) : Prop := field bytes offset 1 = if b then 1 else 0

/-- An optional number: its presence byte and the number, all 0 when it is absent. -/
def optionalAt (bytes : List Byte) (offset len : Nat) (n : Option Nat) : Prop :=
  match n with
  | some v => field bytes offset 1 = 1 ∧ numberAt bytes (offset + 1) len v
  | none => field bytes offset (1 + len) = 0

/-- A list of numbers of `size` bytes: its length byte, its entries, and 0 beyond them; no more than `greatest` are carried (log entry 21). -/
def listAt (bytes : List Byte) (offset greatest size : Nat) (entries : List Nat) : Prop :=
  field bytes offset 1 = min greatest entries.length
    ∧ ∀ j < greatest, numberAt bytes (offset + 1 + size * j) size (entries[j]?.getD 0)

/-- The first refused row of a stream: presence, chunk number, position and reason (section 10.7). -/
def firstRefusedAt (bytes : List Byte) (offset : Nat) (first : Option FirstRefused) : Prop :=
  match first with
  | some f => field bytes offset 1 = 1 ∧ numberAt bytes (offset + 1) 2 f.chunk ∧ numberAt bytes (offset + 3) 1 f.position
      ∧ field bytes (offset + 4) 1 = f.reason.code.toNat
  | none => field bytes offset 5 = 0

/-- The fields of STATUS (R191); the orders and the widths R197 leaves open are log entry 18's. -/
structure StatusLayout (s : State) (bytes : List Byte) : Prop where
  vendor : field bytes 0 2 = 0x3E1A
  part : field bytes 2 2 = 0x2460
  revision : field bytes 4 1 = 0x43
  partStatus : field bytes 5 1 = s.trunk.partStatus.code.toNat
  currentDay : optionalAt bytes 6 1 s.calendar.currentDay
  noDay : s.calendar.currentDay = none → optionalAt bytes 8 1 none
  dayState : ∀ d ≤ 239, s.calendar.currentDay = some d → optionalAt bytes 8 1 (some (s.calendar.day d).state.code.toNat)
  second : numberAt bytes 10 4 s.calendar.secondOfDay
  latches : ∀ c : Condition, flagAt bytes (14 + 2 * c.index.val) (s.trunk.condition c).latched
  masks : ∀ c : Condition, flagAt bytes (15 + 2 * c.index.val) (s.trunk.condition c).masked
  malformed : numberAt bytes 34 2 s.trunk.malformed
  overflow : numberAt bytes 36 2 s.trunk.rxOverflow
  usedSlots : numberAt bytes 38 4 s.table.usedSlots
  held : numberAt bytes 42 2 s.journal.held
  stream : field bytes 44 1 = s.stream.state.code.toNat

/-- The pass row encoding (section 10.7, R15). -/
structure PassRowLayout (slot : Nat) (row : PassRow) (bytes : List Byte) : Prop where
  uid : field bytes 0 8 = row.uid.toNat
  product : field bytes 8 1 = row.product.val
  status : field bytes 9 1 = row.status.code.toNat
  headcount : numberAt bytes 10 1 row.headcount
  expiry : optionalAt bytes 11 1 row.expiryDay
  generation : field bytes 13 1 = row.generation.val
  price : numberAt bytes 14 4 row.pricePerHead
  seasonDays : numberAt bytes 18 1 row.seasonDays
  lastCounted : optionalAt bytes 19 1 row.lastCountedDay
  consumed : listAt bytes 21 14 1 row.consumed
  slotNumber : numberAt bytes 36 2 slot
  noPassage : row.lastPassage = none → field bytes 38 7 = 0
  lastPassage : ∀ p, row.lastPassage = some p →
    field bytes 38 1 = 1 ∧ field bytes 39 1 = p.lift.val ∧ numberAt bytes 40 1 p.day ∧ numberAt bytes 41 4 p.second
  pendingLane : optionalAt bytes 45 1 (row.pendingLane.map (·.val))
  noRefund : row.refund = none → field bytes 47 10 = 0
  refund : ∀ f, row.refund = some f → field bytes 47 1 = 1 ∧ numberAt bytes 48 4 f.paidPerHead
    ∧ numberAt bytes 52 4 f.balancePerHead ∧ numberAt bytes 56 1 f.retireDay

/-- The fields of PRODUCT_READ: those of R16 in its order, and whether the code is protected (R20). -/
structure ProductLayout (p : Product) (isProtected : Bool) (bytes : List Byte) : Prop where
  isDefined : flagAt bytes 0 p.isDefined
  kind : field bytes 1 1 = p.kind.code.toNat
  dayCount : numberAt bytes 2 1 p.dayCount
  validFrom : numberAt bytes 3 1 p.validFrom
  validTo : numberAt bytes 4 1 p.validTo
  liftMask : field bytes 5 8 = p.liftMask.toNat
  rerideInterval : numberAt bytes 13 2 p.rerideInterval
  groupAllowed : flagAt bytes 15 p.groupAllowed
  refundable : flagAt bytes 16 p.refundable
  refundGrace : numberAt bytes 17 1 p.refundGrace
  peakRate : numberAt bytes 18 4 p.peakRate
  regularRate : numberAt bytes 22 4 p.regularRate
  lowRate : numberAt bytes 26 4 p.lowRate
  refundFee : numberAt bytes 30 4 p.refundFee
  rowCount : numberAt bytes 34 4 p.rowCount
  isProtected : flagAt bytes 38 isProtected

/-- The fields of CALENDAR_READ (R40). -/
structure CalendarLayout (r : DayRecord) (credit : Nat) (isCurrent : Bool) (bytes : List Byte) : Prop where
  dayClass : field bytes 0 1 = r.dayClass.code.toNat
  operating : numberAt bytes 1 2 r.operatingMinutes
  closed : numberAt bytes 3 2 r.closedLiftMinutes
  credit : numberAt bytes 5 1 credit
  source : field bytes 6 1 = r.source.code.toNat
  state : field bytes 7 1 = r.state.code.toNat
  isCurrent : flagAt bytes 8 isCurrent

/-- The fields of LANE_READ (R65), the counters in the order of R64. -/
structure LaneLayout (x : Lane) (bytes : List Byte) : Prop where
  presence : flagAt bytes 0 x.presence.debounced
  keyPosition : field bytes 1 1 = x.keyPosition.code.toNat
  configuredMode : field bytes 2 1 = x.configuredMode.code.toNat
  actuationFail : flagAt bytes 3 x.actuationFail
  stuckOpen : flagAt bytes 4 x.stuckOpen
  latchSense : flagAt bytes 5 x.latchReleased
  unlock : flagAt bytes 6 x.unlock
  primary : field bytes 7 1 = x.primaryLift.val
  secondary : optionalAt bytes 8 1 (x.secondaryLift.map (·.val))
  served : optionalAt bytes 10 1 (x.servedLift.map (·.val))
  effective : field bytes 12 1 = x.effective.code.toNat
  noAdmission : x.admission = none → field bytes 13 14 = 0
  admission : ∀ a, x.admission = some a →
    field bytes 13 1 = 1 ∧ field bytes 14 8 = a.uid.toNat ∧ field bytes 22 1 = a.lift.val
      ∧ optionalAt bytes 23 1 (a.phase.map (·.code.toNat)) ∧ numberAt bytes 25 1 a.headsTotal
      ∧ numberAt bytes 26 1 a.headsPassed
  taps : numberAt bytes 27 2 x.counters.taps
  grants : numberAt bytes 29 2 x.counters.grants
  denials : ∀ reason : DenyReason, numberAt bytes (31 + 2 * reason.index.val) 2 x.counters.denials[reason.index]
  balks : numberAt bytes 61 2 x.counters.balks
  partials : numberAt bytes 63 2 x.counters.partials
  holdExpiries : numberAt bytes 65 2 x.counters.holdExpiries
  intrusions : numberAt bytes 67 2 x.counters.intrusions
  freePassages : numberAt bytes 69 2 x.counters.freePassages
  linkErrors : numberAt bytes 71 2 x.linkErrors
  notShown : x.lastShown = none → field bytes 73 4 = 0
  lastShown : ∀ h, x.lastShown = some h →
    field bytes 73 1 = 1 ∧ field bytes 74 1 = h.signal.code.toNat ∧ field bytes 75 1 = h.reason.code.toNat
      ∧ numberAt bytes 76 1 h.heads

/-- The fields of LIFT_READ (R86); each held request is its lane and its hold start. -/
structure LiftLayout (x : Lift) (servedBy : List LaneNo) (bytes : List Byte) : Prop where
  enabled : flagAt bytes 0 x.enabled
  resortLift : numberAt bytes 1 1 x.resortLift
  seats : numberAt bytes 2 1 x.seatsPerCarrier
  limit : numberAt bytes 3 2 x.corralLimit
  lineState : field bytes 5 1 = x.lineState.debounced.code.toNat
  state : field bytes 6 1 = x.state.code.toNat
  inOperation : flagAt bytes 7 x.inOperation
  occupancy : numberAt bytes 8 2 x.occupancy
  reserved : numberAt bytes 10 1 x.reservations.length
  reservations : listAt bytes 11 12 1 (x.reservations.map (·.lane.val))
  holdQueue : listAt bytes 24 12 5 (x.holdQueue.map fun e => e.lane.val * 256 ^ 4 + e.holdStart.toNat)
  served : listAt bytes 85 12 1 (servedBy.map (·.val))

/-- The fields of JOURNAL_READ of a lift, or of the station when absent (R140). -/
structure JournalLayout (j : Journal) (lift : Option LiftNo) (bytes : List Byte) : Prop where
  held : numberAt bytes 0 2 j.held
  oldest : optionalAt bytes 2 4 (j.ring.head?.map (·.sequence))
  newest : optionalAt bytes 7 4 (j.ring.getLast?.map (·.sequence))
  next : numberAt bytes 12 4 j.nextSequence
  sendPosition : optionalAt bytes 16 4 j.sendPosition
  replayCursor : optionalAt bytes 21 4 j.replayCursor
  lowMark : numberAt bytes 26 2 j.lowMark
  highMark : numberAt bytes 28 2 j.highMark
  above : flagAt bytes 30 j.above
  bins : ∀ i, lift = some i → ∀ hour : Fin 24, numberAt bytes (31 + 4 * hour.val) 4 j.bins[i][hour]
  overflow : ∀ i, lift = some i → numberAt bytes 127 4 j.liftOverflow[i] ∧ numberAt bytes 131 4 0
  station : lift = none → (∀ k < 100, field bytes (31 + k) 1 = 0) ∧ numberAt bytes 131 4 j.stationOverflow

/-- The fields of CONFIG, as stored (R193). -/
structure SettingsLayout (v : Settings) (bytes : List Byte) : Prop where
  passageWindow : numberAt bytes 0 1 v.passageWindow
  holdTimeout : numberAt bytes 1 1 v.holdTimeout
  minimumPayout : numberAt bytes 2 2 v.minimumPayout
  closureThreshold : numberAt bytes 4 2 v.closureThreshold
  lowMark : numberAt bytes 6 2 v.lowMark
  highMark : numberAt bytes 8 2 v.highMark

/-- The fields of a USAGE_MERGE that was not refused: the UID, the day and the figures (R173). -/
structure MergeLayout (uid : Uid) (d : Nat) (f : MergeFigures) (bytes : List Byte) : Prop where
  uid : field bytes 0 8 = uid.toNat
  day : numberAt bytes 8 1 d
  listLength : numberAt bytes 9 1 f.listLength
  dayCount : numberAt bytes 10 1 f.dayCount
  seasonDays : numberAt bytes 11 1 f.seasonDays
  lastCounted : optionalAt bytes 12 1 f.lastCounted
  perHead : numberAt bytes 14 4 f.adjusted.perHead
  total : numberAt bytes 18 4 f.adjusted.total
  balance : numberAt bytes 22 4 f.adjusted.balance
  sequence : numberAt bytes 26 4 f.adjusted.sequence

/-- The figures of a REFUND_REQUEST that passed checks 1 to 10 (R157), behind the refund field and with the headcount, which the kind's one layout also
carries (R146, R197), and the sequence of the REFUND record, 0 when there is none (R158). -/
structure RefundLayout (c : RefundCase) (belowMinimum : Bool) (sequence : Nat) (bytes : List Byte) : Prop where
  noRefund : field bytes 0 10 = 0
  headcount : numberAt bytes 10 1 c.row.headcount
  uid : field bytes 11 8 = c.row.uid.toNat
  deadline : numberAt bytes 19 2 c.deadline
  unused : numberAt bytes 21 1 c.unused
  consumed : numberAt bytes 22 4 c.figures.consumed
  weather : numberAt bytes 26 4 c.figures.weather
  gross : numberAt bytes 30 4 c.figures.gross
  net : numberAt bytes 34 4 c.figures.net
  total : numberAt bytes 38 4 c.figures.total
  belowMinimum : flagAt bytes 42 belowMinimum
  sequence : numberAt bytes 43 4 sequence

/-- The refund field and the headcount of an ALREADY_RETIRED reply (R146). -/
structure RetiredLayout (f : Refund) (headcount : Nat) (bytes : List Byte) : Prop where
  presence : field bytes 0 1 = 1
  paid : numberAt bytes 1 4 f.paidPerHead
  balance : numberAt bytes 5 4 f.balancePerHead
  retireDay : numberAt bytes 9 1 f.retireDay
  headcount : numberAt bytes 10 1 headcount

/-- The fields of a STREAM_DATA that was applied (R179); each refused row is its position and its reply code. -/
structure ChunkLayout (expected number applied : Nat) (refused : List (Nat × ReplyCode)) (bytes : List Byte) : Prop where
  expected : numberAt bytes 0 2 expected
  number : numberAt bytes 2 2 number
  applied : numberAt bytes 4 1 applied
  refusedCount : numberAt bytes 5 1 refused.length
  rows : listAt bytes 6 16 2 (refused.map fun q => q.1 % 256 * 256 + q.2.code.toNat)

/-- The fields of a STREAM_CLOSE (R181). -/
structure StreamCloseLayout (x : Stream) (newState : StreamState) (bytes : List Byte) : Prop where
  generation : field bytes 0 1 = x.generation.val
  applied : numberAt bytes 1 4 x.rowsApplied
  refused : numberAt bytes 5 4 x.rowsRefused
  first : firstRefusedAt bytes 9 x.firstRefused
  expected : numberAt bytes 14 2 x.expectedChunk
  state : field bytes 16 1 = newState.code.toNat

/-- The fields of a STREAM_ABORT (R183); those of a sweep only when one was under way. -/
structure StreamAbortLayout (x : Stream) (bytes : List Byte) : Prop where
  generation : field bytes 0 1 = x.generation.val
  applied : numberAt bytes 1 4 x.rowsApplied
  refused : numberAt bytes 5 4 x.rowsRefused
  noSweep : x.state ≠ .sweeping → bytes.length = 9
  sweep : x.state = .sweeping → bytes.length = 23 ∧ numberAt bytes 9 2 x.sweepCursor ∧ numberAt bytes 11 4 x.sweepDeleted
    ∧ numberAt bytes 15 4 x.sweepKeptBusy ∧ numberAt bytes 19 4 x.sweepKeptRefunded

/-- The fields of a RECORD body (section 10.7); 0 where the record lacks a field (log entry 45). -/
structure RecordLayout (r : JournalRecord) (replay : Bool) (bytes : List Byte) : Prop where
  length : bytes.length = 29
  sequence : numberAt bytes 0 4 r.sequence
  kind : field bytes 4 1 = r.body.kind.code.toNat
  replay : (field bytes 5 1).testBit 0 = replay
  newDay : (field bytes 5 1).testBit 1 = decide (r.body.newDay = some true)
  dayPresent : (field bytes 5 1).testBit 2 = r.body.day.isSome
  lanePresent : (field bytes 5 1).testBit 3 = r.body.lane.isSome
  liftPresent : (field bytes 5 1).testBit 4 = r.body.lift.isSome
  flags : field bytes 5 1 < 32
  second : numberAt bytes 6 4 r.body.second
  day : numberAt bytes 10 1 (r.body.day.getD 0)
  lane : field bytes 11 1 = (r.body.lane.map (·.val)).getD 0
  lift : field bytes 12 1 = (r.body.lift.map (·.val)).getD 0
  resortLift : numberAt bytes 13 1 (r.resortLift.getD 0)
  uid : field bytes 14 8 = (r.body.uid.getD 0).toNat
  headIndex : numberAt bytes 22 1 (r.body.headIndex.getD 0)
  headcount : numberAt bytes 23 1 (r.body.headcount.getD 0)
  amount : numberAt bytes 24 4 (r.body.amountPerHead.getD 0)
  unused : numberAt bytes 28 1 (r.body.unusedDays.getD 0)

/-- The bytes of a NOTICE body that its condition's detail uses, and 0 for the others (section 10.7). -/
def detailAt (bytes : List Byte) : NoticeDetail → Prop
  | .empty => field bytes 1 35 = 0
  | .lane l => field bytes 1 1 = l.val ∧ field bytes 2 34 = 0
  | .heldCount v | .receiveOverflow v => field bytes 1 15 = 0 ∧ numberAt bytes 16 4 v ∧ field bytes 20 16 = 0
  | .overflow lift v =>
    field bytes 1 1 = (lift.map (·.val)).getD 0xFF ∧ field bytes 2 14 = 0 ∧ numberAt bytes 16 4 v ∧ field bytes 20 16 = 0
  | .merge uid day =>
    field bytes 1 1 = 0 ∧ numberAt bytes 2 1 day ∧ field bytes 3 5 = 0 ∧ field bytes 8 8 = uid.toNat
      ∧ field bytes 16 20 = 0
  | .streamDone generation applied refused first deleted keptBusy keptRefunded =>
    field bytes 1 1 = 0 ∧ field bytes 2 1 = generation.val ∧ firstRefusedAt bytes 3 first ∧ field bytes 8 8 = 0
      ∧ numberAt bytes 16 4 applied ∧ numberAt bytes 20 4 refused ∧ numberAt bytes 24 4 deleted
      ∧ numberAt bytes 28 4 keptBusy ∧ numberAt bytes 32 4 keptRefunded
  | .streamTimeout generation expected applied refused =>
    field bytes 1 1 = 0 ∧ field bytes 2 1 = generation.val ∧ field bytes 3 13 = 0 ∧ numberAt bytes 16 4 applied
      ∧ numberAt bytes 20 4 refused ∧ numberAt bytes 24 4 expected ∧ field bytes 28 8 = 0

/-- A NOTICE body: the condition code and the detail (section 10.7, R194). -/
structure NoticeLayout (n : Raise) (bytes : List Byte) : Prop where
  length : bytes.length = 36
  condition : field bytes 0 1 = n.condition.index.val
  detail : detailAt bytes n.detail

/-! ### The pass table and the product table -/

/-- Rows stand in rising slots, each in its UID's bucket, no UID twice and none 0; none stands while the memory clear runs (R1, R2, R7). -/
structure State.TableLaw (s : State) : Prop where
  canonical : slotsWf s.table.slots = true
  placed : ∀ e ∈ s.table.slots, e.1 / 8 = bucketOf e.2.uid ∧ e.2.uid ≠ 0
  once : ∀ e ∈ s.table.slots, ∀ f ∈ s.table.slots, e.2.uid = f.2.uid → e = f
  clearing : s.trunk.partStatus = .starting → s.table.slots = []

/-- The used-slot count is the number of rows, and each product's row count the number of rows naming it (R2, R17). -/
structure State.CountLaw (s : State) : Prop where
  used : s.table.usedSlots = s.table.slots.length
  rows : ∀ c : ProductCode, (s.product c).rowCount = s.table.slots.countP fun e : Nat × PassRow => decide (e.2.product = c)

/-- What a row of a product is: the product is defined, and a MULTI_DAY row's consumed day list is strictly ascending, of days 0 to 239, and no longer
than the day count, while a SEASON row's is empty (R3, R4). -/
def rowFits (p : Product) (row : PassRow) : Prop :=
  p.isDefined = true ∧
    match p.kind with
    | .multiDay => ascending row.consumed = true ∧ row.consumed.length ≤ p.dayCount ∧ ∀ d ∈ row.consumed, d ≤ 239
    | .season => row.consumed = []

/-- Every row fits the product it names, and the days still to be written into rows, the current day and the stamps of passage row operations, are
days 0 to 239 (R4, R28, R111). -/
structure State.ListLaw (s : State) : Prop where
  fits : ∀ e ∈ s.table.slots, rowFits (s.product e.2.product) e.2
  current : ∀ d, s.calendar.currentDay = some d → d ≤ 239
  stamps : ∀ (l : LaneNo) (slot : Nat) (uid : Uid) (head : Nat) (lift : LiftNo) (stamp : Stamp) (d : Nat),
    RowOp.passage slot uid head lift stamp ∈ (s.lane l).rowOps → stamp.day = some d → d ≤ 239

/-- A row carrying a refund is RETIRED, and its balance is not above what was paid (R13, R160). -/
def State.RefundLaw (s : State) : Prop :=
  ∀ e ∈ s.table.slots, ∀ f, e.2.refund = some f → e.2.status = .retired ∧ f.balancePerHead ≤ f.paidPerHead

/-- A defined product's fields lie in their ranges (R16, R18). -/
def Product.Legal (p : Product) : Prop :=
  p.isDefined = true →
    (match p.kind with
     | .multiDay => 1 ≤ p.dayCount ∧ p.dayCount ≤ 14
     | .season => p.dayCount = 0 ∧ p.refundable = false)
    ∧ p.validFrom ≤ p.validTo ∧ p.validTo ≤ 239 ∧ p.rerideInterval ≤ 3600 ∧ p.refundGrace ≤ 30 ∧ p.peakRate ≤ 99999
    ∧ p.regularRate ≤ 99999 ∧ p.lowRate ≤ 99999 ∧ p.refundFee ≤ 99999

def State.ProductLaw (s : State) : Prop := ∀ c : ProductCode, (s.product c).Legal

/-! ### The calendar -/

/-- The second of day and the current day lie in their ranges; the current day has been opened and no later day has; the fields of every record lie in
their ranges, and a day still AHEAD holds no closed lift-minutes (R27 to R31). -/
structure Calendar.Law (c : Calendar) : Prop where
  second : c.secondOfDay ≤ 86399
  current : ∀ d, c.currentDay = some d → d ≤ 239 ∧ (c.day d).state ≠ .ahead
  later : ∀ d ≤ 239, (c.currentDay.all fun n => decide (n < d)) = true → (c.day d).state = .ahead
  ranges : ∀ d ≤ 239, (c.day d).operatingMinutes ≤ 1440 ∧ (c.day d).closedLiftMinutes ≤ 5760 ∧ (c.day d).creditPercent ≤ 100
  ahead : ∀ d ≤ 239, (c.day d).state = .ahead → (c.day d).closedLiftMinutes = 0

/-! ### Lanes -/

/-- A lane's served lift and effective state are those derived; it holds an admission only in IN_SERVICE, for its served lift, with the deadline and the
hold start its phase calls for; UNLOCK and the two windows stand as R56 to R58 require; a DETACHED lane holds no latch and its key stands at
NORMAL (R47, R53, R54, R56 to R58, R63, R73, R74, R105). -/
structure Lane.Law (x : Lane) : Prop where
  mapping : x.secondaryLift ≠ some x.primaryLift
  served : x.servedLift = x.derivedLift
  state : x.effective = x.derived
  admitted : ∀ a, x.admission = some a → x.effective = .inService ∧ x.servedLift = some a.lift
  phase : ∀ a, x.admission = some a →
    (a.deadline.isSome = true ↔ a.phase.isSome = true) ∧ (a.holdStart.isSome = true ↔ a.phase = some .hold)
  unlock : x.unlock = true ↔ (∃ a, x.admission = some a ∧ a.phase = some .unlocked) ∨ x.effective = .overrideFree
  drive : x.driveWindow.isSome = true → x.unlock = true ∧ x.latchReleased = false
  watch : x.releaseWatch.isSome = true ↔
    x.unlock = false ∧ x.presence.debounced = true ∧ x.stuckOpen = false ∧ x.latchReleased = true
  detached : x.presence.debounced = false → x.actuationFail = false ∧ x.stuckOpen = false ∧ x.keyPosition = .normal
  waiting : x.waitingTap.isSome = true → x.validationInFlight = true

def State.LaneLaw (s : State) : Prop := ∀ l : LaneNo, (s.lane l).Law

/-- The counters of a lane and its lane-link error counter lie in their range; while the taps counter has not saturated, every counted tap is in the
grants counter or in one of the 15 denial counters (R49, R64). -/
structure Lane.CounterLaw (x : Lane) : Prop where
  taps : x.counters.taps ≤ 65535
  grants : x.counters.grants ≤ 65535
  denials : ∀ reason : DenyReason, x.counters.denials[reason.index] ≤ 65535
  ends : x.counters.balks ≤ 65535 ∧ x.counters.partials ≤ 65535 ∧ x.counters.holdExpiries ≤ 65535
  rotations : x.counters.intrusions ≤ 65535 ∧ x.counters.freePassages ≤ 65535
  linkErrors : x.linkErrors ≤ 65535
  sum : x.counters.taps < 65535 → x.counters.taps = x.counters.grants + x.counters.denials.toList.sum

def State.CounterLaw (s : State) : Prop := ∀ l : LaneNo, (s.lane l).CounterLaw

/-- The lane holds the row of this slot and UID: by its admission, or by the closing row operation that has still to be performed (R105, R115). -/
def Lane.claims (x : Lane) (slot : Nat) (uid : Uid) : Prop :=
  (∃ a, x.admission = some a ∧ a.slot = slot ∧ a.uid = uid) ∨ RowOp.closing slot uid ∈ x.rowOps

/-- What an operation of a row-operation list needs of its lane and of the operations after it: one validation at most, in flight, behind every other operation and while no
admission is held; one closing row operation at most, of an admission that has ended, and behind it nothing but the validation; a passage row operation is of the row its lane
holds (R91, R114, R115). -/
def Lane.listed (x : Lane) (op : RowOp) (after : List RowOp) : Prop :=
  match op with
  | .validate _ => x.admission = none ∧ x.validationInFlight = true ∧ after = []
  | .closing _ _ => x.admission = none ∧ ∀ later ∈ after, ∃ uid, later = .validate uid
  | .passage slot uid _ _ _ => x.claims slot uid

/-- The two ends of a grant: a row's pending lane is a lane that holds the row, and every row that a lane holds names it, but for a lane that has still to take a station reset,
whose rows name it no longer and whose row-operation list is empty (R8, R99, R114, R115). -/
structure State.GrantLaw (s : State) : Prop where
  named : ∀ (l : LaneNo) (slot : Nat) (uid : Uid),
    ((s.lane l).resetsPending = 0 ∧ (s.lane l).claims slot uid) ↔
      ∃ row, slotAt s.table.slots slot = some row ∧ row.uid = uid ∧ row.pendingLane = some l
  ordered : ∀ (l : LaneNo) (before after : List RowOp) (op : RowOp), (s.lane l).rowOps = before ++ op :: after →
    (s.lane l).listed op after
  discarded : ∀ l : LaneNo, (s.lane l).resetsPending ≠ 0 → (s.lane l).rowOps = []

/-! ### Lifts -/

/-- A lift's configuration and occupancy lie in their ranges; out of operation it holds no request, and in operation it holds one only while there is no room
(R68, R69, R76, R79, R81, R84). -/
structure Lift.Law (x : Lift) : Prop where
  resort : x.resortLift ≤ 63
  seats : 1 ≤ x.seatsPerCarrier ∧ x.seatsPerCarrier ≤ 12
  limit : x.corralLimit ≤ 999
  occupancy : x.occupancy ≤ 999
  closed : x.inOperation = false → x.holdQueue = []
  full : x.holdQueue ≠ [] → x.corralLimit ≠ 0 ∧ x.corralLimit ≤ x.occupancy + x.reserved

def State.LiftLaw (s : State) : Prop := ∀ i : LiftNo, (s.lift i).Law

/-- How many places of a request the lane holds, or has given back in a passage or a release that the lift has still to take (R78, R82). -/
def Lane.owes (x : Lane) (i : LiftNo) (n : RequestNo) : Nat :=
  (x.admission.any fun a => a.phase = some .unlocked ∧ a.lift = i ∧ a.request = n).toNat
    + x.toLifts[i].countP fun m => m = .passage n ∨ m = .release n

/-- No reserved place is left behind: every reservation entry is of a place that the lane has still to take, holds in an UNLOCKED admission, or has given back (R78, R82, R84).
A lift that has taken a station reset before a lane holds nothing of that lane until the lane has taken it too (R87); a lift that has still to take one the lane has taken may
hold what the reset will discard. -/
structure State.PlaceLaw (s : State) : Prop where
  accounted : ∀ (l : LaneNo) (i : LiftNo) (n : RequestNo), (s.lift i).resetsPending ≤ (s.lane l).resetsPending →
    (s.lift i).reservations.count { lane := l, request := n } ≤ (s.lift i).answers[l].count (.place n) + (s.lane l).owes i n
  emptied : ∀ (l : LaneNo) (i : LiftNo), (s.lift i).resetsPending < (s.lane l).resetsPending →
    (∀ r ∈ (s.lift i).reservations, r.lane ≠ l) ∧ (∀ e ∈ (s.lift i).holdQueue, e.lane ≠ l)
      ∧ ∀ n, LaneMessage.placeRequest n ∉ (s.lane l).toLifts[i]

/-! ### The ride journal -/

/-- The sequences of a ring, each one step above the one before, the last one step below `next` (R129). -/
def consecutive : List JournalRecord → Nat → Prop
  | [], _ => True
  | [r], next => 1 ≤ r.sequence ∧ r.sequence ≤ sequenceCount ∧ stepForward r.sequence = next
  | r :: q :: rest, next =>
    1 ≤ r.sequence ∧ r.sequence ≤ sequenceCount ∧ stepForward r.sequence = q.sequence ∧ consecutive (q :: rest) next

/-- The ring holds at most 4,096 records with consecutive sequences; the send position and the replay cursor name held records; the marks stand in order
(R128, R129, R131, R134, R136, R138). -/
structure Journal.Law (j : Journal) : Prop where
  held : j.held ≤ 4096
  next : 1 ≤ j.nextSequence ∧ j.nextSequence ≤ sequenceCount
  sequences : consecutive j.ring j.nextSequence
  send : ∀ q, j.sendPosition = some q → (j.recordAt q).isSome = true
  replay : ∀ q, j.replayCursor = some q → (j.recordAt q).isSome = true
  marks : 1 ≤ j.lowMark ∧ j.lowMark < j.highMark ∧ j.highMark ≤ 4080

/-! ### The trunk port -/

/-- The receive queue holds at most 32 frames, at most 16 reply places are in use, the pending notice list holds each condition at most once, and the error
counters stay in their range (R187 to R189). -/
structure TrunkPort.Law (t : TrunkPort) : Prop where
  received : t.rxQueue.length ≤ 32
  places : t.placesUsed ≤ 16
  notices : t.pendingNotices.Pairwise fun a b => a.condition ≠ b.condition
  counters : t.malformed ≤ 65535 ∧ t.rxOverflow ≤ 65535

/-- What the command takes stands: a request at its owner, a grant at the table port, a message, a raise or a record handed on, an expired time, a level that differs from the
line's. A command for which it does not stand changes nothing (log entry 1). -/
def State.stands (s : State) (c : Instr) : Prop :=
  match c with
  | .powerOnReset | .trunkFrameReceive _ | .transmitFrame => True
  | .countAdvance => s.calendar.secondDone = true
  | .memoryClearDone => s.trunk.partStatus = .starting
  | .stationReset => s.trunk.restarts ≠ []
  | .cabinetResetLine => s.resetLine.asserted = true ∧ s.resetLine.armed = true ∧ s.resetLine.remaining = 0
  | .resetLineChange asserted => asserted ≠ s.resetLine.asserted
  | .laneStationReset l => (s.lane l).resetsPending ≠ 0
  | .liftStationReset i => (s.lift i).resetsPending ≠ 0
  | .requestRoute => s.trunk.rxQueue ≠ [] ∧ s.trunk.placesUsed < 16
  | .noticeRaise source => s.raisesOf source ≠ []
  | .passPut => ∃ r, s.Presents .passPut r
  | .passSetStatus => ∃ r, s.Presents .passSetStatus r
  | .passDelete => ∃ r, s.Presents .passDelete r
  | .passRead => ∃ r, s.Presents .passRead r
  | .usageMerge => ∃ r, s.Presents .usageMerge r
  | .productPut => ∃ r, s.Presents .productPut r
  | .productClear => ∃ r, s.Presents .productClear r
  | .productRead => ∃ r, s.Routes .productTable .productRead r
  | .protectSet => ∃ r, s.Routes .productTable .protectSet r
  | .serviceKeyLineChange asserted => asserted ≠ s.serviceKey.line
  | .serviceKeyDebounceExpiry => s.serviceKey.remaining = some 0
  | .dayOpen => ∃ r, s.Routes .calendar .dayOpen r
  | .dayClose => ∃ r, s.Routes .calendar .dayClose r
  | .time => ∃ r, s.Routes .calendar .time r
  | .calendarPut => ∃ r, s.Routes .calendar .calendarPut r
  | .calendarRead => ∃ r, s.Routes .calendar .calendarRead r
  | .laneDayOpen l => s.calendar.toLanes[l].head? = some .opened
  | .laneDayClose l => s.calendar.toLanes[l].head? = some .closed
  | .journalDayOpen => s.calendar.toJournal ≠ 0
  | .protectionDayOpen => s.calendar.toProductTable ≠ 0
  | .laneRelease l => ∃ r, s.Routes (.lane l) .laneRelease r
  | .laneLock l => ∃ r, s.Routes (.lane l) .laneLock r
  | .laneFaultClear l => ∃ r, s.Routes (.lane l) .laneFaultClear r
  | .laneConfig l => ∃ r, s.Routes (.lane l) .laneConfig r
  | .laneRead l => ∃ r, s.Routes (.lane l) .laneRead r
  | .presentLineChange l present => present ≠ (s.lane l).presence.line
  | .presenceDebounceExpiry l => (s.lane l).presence.remaining = some 0
  | .latchSenseChange l released => released ≠ (s.lane l).latchReleased
  | .driveWindowExpiry l => (s.lane l).driveWindow = some 0 ∧ (s.lane l).unlock = true ∧ (s.lane l).latchReleased = false
  | .releaseWatchExpiry l => (s.lane l).releaseWatch = some 0 ∧ (s.lane l).watched = true
  | .tap l frame => (∃ uid, (s.lane l).hears frame = some (.tap uid)) ∨ (s.lane l).hears frame = some .bad
  | .key l frame => (∃ position, (s.lane l).hears frame = some (.key position)) ∨ (s.lane l).hears frame = some .bad
  | .laneFrameDrop l frame => (s.lane l).hears frame = some .bad
  | .waitingTapTake l => (s.lane l).emptiedTaps ≠ []
  | .validation l => s.table.cancellations[l] = [] ∧ ∃ uid, s.RowOpNext l (.validate uid)
  | .showSend l receiving => receiving = false ∧ (s.lane l).sending = none ∧ (s.lane l).showSlot ≠ none
  | .showSent l => (s.lane l).sending ≠ none
  | .rotation l active => active ≠ (s.lane l).rotationLine.active
  | .passageCommit l => ∃ slot uid lift stamp, s.RowOpNext l (.passage slot uid 1 lift stamp)
  | .headRecord l => ∃ slot uid head lift stamp, head ≠ 1 ∧ s.RowOpNext l (.passage slot uid head lift stamp)
  | .closingRowOperation l => ∃ slot uid, s.RowOpNext l (.closing slot uid)
  | .passageWindowExpiry l => (s.lane l).deadlineDue .unlocked s.timebase = true
  | .holdTimeoutExpiry l => (s.lane l).deadlineDue .hold s.timebase = true
  | .passStatusCancellation l => s.table.cancellations[l] ≠ []
  | .placeRequest l i => ∃ n, s.messageTo l i = some (.placeRequest n)
  | .liftPassage l i => ∃ n, s.messageTo l i = some (.passage n)
  | .release l i => ∃ n, s.messageTo l i = some (.release n)
  | .leave l i => ∃ n, s.messageTo l i = some (.leave n)
  | .liftFreePassage l i => s.messageTo l i = some .freePassage
  | .liftIntrusion l i => s.messageTo l i = some .intrusion
  | .place l i => ∃ n, (s.lift i).answers[l].head? = some (.place n)
  | .hold l i => ∃ n, (s.lift i).answers[l].head? = some (.hold n)
  | .refusal l i => ∃ n, (s.lift i).answers[l].head? = some (.refusal n)
  | .carrierPulse i active => active ≠ (s.lift i).carrierLine.active
  | .liftLineChange i lsa lsb => decodedLines lsa lsb ≠ (s.lift i).lineState.line
  | .liftDebounceExpiry i => (s.lift i).lineState.remaining = some 0
  | .liftConfig i => ∃ r, s.Routes (.lift i) .liftConfig r
  | .liftRead i => ∃ r, s.Routes (.lift i) .liftRead r
  | .inOperationChange l i => (s.lift i).changes[l] ≠ []
  | .passageRecordTake owner => s.recordsOf owner ≠ []
  | .journalAck => ∃ r, s.Routes .journal .journalAck r
  | .journalReplay => ∃ r, s.Routes .journal .journalReplay r
  | .journalRead => ∃ r, s.Routes .journal .journalRead r
  | .refundQuote => ∃ r, s.AsksRefund r ∧ r.refundMode ≠ some .retire
  | .refundRetire => ∃ r, s.AsksRefund r ∧ r.refundMode = some .retire
  | .streamOpen => ∃ r, s.StreamAsks .streamOpen r
  | .streamData => ∃ r, s.StreamAsks .streamData r
  | .streamChunkRow => s.nextGrant = some .streamUnit ∧ ∃ k, s.stream.chunk = some k ∧ k.rows ≠ []
  | .streamSuspend => ∃ r, s.StreamAsks .streamSuspend r
  | .streamResume => ∃ r, s.StreamAsks .streamResume r
  | .streamClose => ∃ r, s.StreamAsks .streamClose r
  | .streamAbort => ∃ r, s.StreamAsks .streamAbort r
  | .streamIdleExpiry => s.stream.idleDue s.timebase = true
  | .sweepStep => s.nextGrant = some .sweep
  | .status => ∃ r, s.Routes .trunkPort .status r
  | .restart => ∃ r, s.Routes .trunkPort .restart r
  | .config .trunkPort => ∃ r, s.Routes .trunkPort .config r
  | .config (.lane l) => ∃ r, s.Routes (.lane l) .config r
  | .config .refundUnit => ∃ r, s.Routes .refundUnit .config r
  | .config .calendar => ∃ r, s.Routes .calendar .config r
  | .config .journal => ∃ r, s.Routes .journal .config r
  | .noticeMask => ∃ r, s.Routes .trunkPort .noticeMask r
  | .noticeAck => ∃ r, s.Routes .trunkPort .noticeAck r

/-! ### What a command may change -/

/-- The fields of State: the blocks of the part, and what stands between them. -/
inductive Part where
  | trunk | routed | table | arbiter | products | protection | serviceKey | calendar | lanes | lifts | journal
  | minimumPayout | stream | timebase | resetLine | freeIndex | pending
  deriving DecidableEq, Repr

/-- The states agree on this field. -/
def Part.same (p : Part) (s t : State) : Prop :=
  match p with
  | .trunk => t.trunk = s.trunk
  | .routed => t.routed = s.routed
  | .table => t.table = s.table
  | .arbiter => t.arbiter = s.arbiter
  | .products => t.products = s.products
  | .protection => t.protection = s.protection
  | .serviceKey => t.serviceKey = s.serviceKey
  | .calendar => t.calendar = s.calendar
  | .lanes => t.lanes = s.lanes
  | .lifts => t.lifts = s.lifts
  | .journal => t.journal = s.journal
  | .minimumPayout => t.minimumPayout = s.minimumPayout
  | .stream => t.stream = s.stream
  | .timebase => t.timebase = s.timebase
  | .resetLine => t.resetLine = s.resetLine
  | .freeIndex => t.freeIndex = s.freeIndex
  | .pending => t.pending = s.pending

/-- The fields a command may write; it leaves every other field as it stands. -/
def Part.writtenBy (c : Instr) : List Part :=
  match c with
  | .powerOnReset =>
    [.trunk, .routed, .table, .arbiter, .products, .protection, .serviceKey, .calendar, .lanes, .lifts, .journal,
    .minimumPayout, .stream, .timebase, .resetLine]
  | .memoryClearDone =>
    [.trunk, .table, .arbiter]
  | .stationReset =>
    [.trunk, .routed, .table, .arbiter, .lanes, .lifts, .journal, .stream]
  | .cabinetResetLine =>
    [.trunk, .resetLine]
  | .laneStationReset _ | .presentLineChange _ _ | .presenceDebounceExpiry _ | .latchSenseChange _ _
  | .driveWindowExpiry _ | .releaseWatchExpiry _ | .tap _ _ | .key _ _ | .laneFrameDrop _ _ | .waitingTapTake _
  | .showSend _ _ | .rotation _ _ | .passageWindowExpiry _ | .holdTimeoutExpiry _ | .showSent _ =>
    [.lanes]
  | .liftStationReset _ | .placeRequest _ _ | .place _ _ | .hold _ _ | .refusal _ _ | .liftPassage _ _ | .release _ _
  | .leave _ _ | .liftFreePassage _ _ | .liftIntrusion _ _ | .inOperationChange _ _ =>
    [.lanes, .lifts]
  | .trunkFrameReceive _ | .noticeRaise .trunkPort =>
    [.trunk]
  | .requestRoute | .productRead | .calendarRead | .laneRead _ | .liftRead _ | .journalRead | .status | .restart
  | .config .trunkPort | .noticeMask | .noticeAck =>
    [.trunk, .routed]
  | .transmitFrame =>
    [.trunk, .journal, .freeIndex]
  | .noticeRaise (.lane _) =>
    [.trunk, .lanes]
  | .noticeRaise .journal =>
    [.trunk, .journal]
  | .noticeRaise .passTable =>
    [.trunk, .table]
  | .noticeRaise .streamUnit =>
    [.trunk, .stream]
  | .passPut | .passDelete =>
    [.trunk, .routed, .table, .arbiter, .products]
  | .passSetStatus =>
    [.trunk, .routed, .table, .arbiter]
  | .passRead | .refundQuote =>
    [.trunk, .routed, .arbiter]
  | .usageMerge | .refundRetire =>
    [.trunk, .routed, .table, .arbiter, .journal]
  | .productPut | .productClear =>
    [.trunk, .routed, .arbiter, .products]
  | .protectSet =>
    [.trunk, .routed, .protection]
  | .serviceKeyLineChange _ | .serviceKeyDebounceExpiry =>
    [.serviceKey]
  | .dayOpen | .dayClose | .time | .calendarPut | .config .calendar =>
    [.trunk, .routed, .calendar]
  | .countAdvance =>
    [.calendar]
  | .laneDayOpen _ | .laneDayClose _ =>
    [.calendar, .lanes]
  | .journalDayOpen =>
    [.calendar, .journal]
  | .protectionDayOpen =>
    [.protection, .calendar]
  | .laneRelease _ | .laneLock _ | .laneFaultClear _ | .laneConfig _ | .config (.lane _) =>
    [.trunk, .routed, .lanes]
  | .validation _ | .passageCommit _ | .headRecord _ | .closingRowOperation _ =>
    [.table, .arbiter, .lanes]
  | .passStatusCancellation _ =>
    [.table, .lanes]
  | .carrierPulse _ _ | .liftLineChange _ _ _ | .liftDebounceExpiry _ =>
    [.lifts]
  | .liftConfig _ =>
    [.trunk, .routed, .lifts]
  | .passageRecordTake .passTable =>
    [.table, .journal]
  | .passageRecordTake (.lane _) =>
    [.lanes, .journal]
  | .journalAck | .journalReplay | .config .journal =>
    [.trunk, .routed, .journal]
  | .streamOpen | .streamData | .streamSuspend | .streamResume | .streamClose | .streamAbort =>
    [.trunk, .routed, .stream]
  | .streamChunkRow =>
    [.trunk, .table, .arbiter, .products, .stream]
  | .streamIdleExpiry =>
    [.stream]
  | .sweepStep =>
    [.table, .arbiter, .products, .stream]
  | .config .refundUnit =>
    [.trunk, .routed, .minimumPayout]
  | .resetLineChange _ =>
    [.resetLine]

/-- Whether a command may write this lane. -/
def mayWriteLane (c : Instr) (l : LaneNo) : Bool :=
  match c with
  | .powerOnReset | .stationReset | .liftStationReset _ => true
  | .laneStationReset k | .laneDayOpen k | .laneDayClose k | .laneRelease k | .laneLock k | .laneFaultClear k
  | .laneConfig k | .presentLineChange k _ | .presenceDebounceExpiry k | .latchSenseChange k _ | .driveWindowExpiry k
  | .releaseWatchExpiry k | .tap k _ | .key k _ | .laneFrameDrop k _ | .waitingTapTake k | .validation k
  | .showSend k _ | .rotation k _ | .passageCommit k | .headRecord k | .closingRowOperation k
  | .passageWindowExpiry k | .holdTimeoutExpiry k | .passStatusCancellation k | .placeRequest k _ | .place k _
  | .hold k _ | .refusal k _ | .liftPassage k _ | .release k _ | .leave k _ | .liftFreePassage k _
  | .liftIntrusion k _ | .inOperationChange k _ | .showSent k => decide (k = l)
  | .noticeRaise source => decide (source = .lane l)
  | .passageRecordTake owner => decide (owner = .lane l)
  | .config owner => decide (owner = .lane l)
  | .memoryClearDone | .cabinetResetLine | .trunkFrameReceive _ | .requestRoute | .transmitFrame | .passPut
  | .passSetStatus | .passDelete | .passRead | .usageMerge | .productPut | .productClear | .productRead | .protectSet
  | .serviceKeyLineChange _ | .serviceKeyDebounceExpiry | .dayOpen | .dayClose | .time | .calendarPut | .calendarRead
  | .countAdvance | .journalDayOpen | .protectionDayOpen | .laneRead _ | .carrierPulse _ _ | .liftLineChange _ _ _
  | .liftDebounceExpiry _ | .liftConfig _ | .liftRead _ | .journalAck | .journalReplay | .journalRead | .refundQuote
  | .refundRetire | .streamOpen | .streamData | .streamChunkRow | .streamSuspend | .streamResume | .streamClose
  | .streamAbort | .streamIdleExpiry | .sweepStep | .status | .restart | .noticeMask | .noticeAck
  | .resetLineChange _ => false

/-- Whether a command may write this lift. -/
def mayWriteLift (c : Instr) (i : LiftNo) : Bool :=
  match c with
  | .powerOnReset | .stationReset => true
  | .liftStationReset k | .placeRequest _ k | .place _ k | .hold _ k | .refusal _ k | .liftPassage _ k | .release _ k
  | .leave _ k | .liftFreePassage _ k | .liftIntrusion _ k | .carrierPulse k _ | .liftLineChange k _ _
  | .liftDebounceExpiry k | .liftConfig k | .inOperationChange _ k => decide (k = i)
  | .memoryClearDone | .cabinetResetLine | .laneStationReset _ | .trunkFrameReceive _ | .requestRoute
  | .transmitFrame | .noticeRaise _ | .passPut | .passSetStatus | .passDelete | .passRead | .usageMerge | .productPut
  | .productClear | .productRead | .protectSet | .serviceKeyLineChange _ | .serviceKeyDebounceExpiry | .dayOpen
  | .dayClose | .time | .calendarPut | .calendarRead | .countAdvance | .laneDayOpen _ | .laneDayClose _
  | .journalDayOpen | .protectionDayOpen | .laneRelease _ | .laneLock _ | .laneFaultClear _ | .laneConfig _
  | .laneRead _ | .presentLineChange _ _ | .presenceDebounceExpiry _ | .latchSenseChange _ _ | .driveWindowExpiry _
  | .releaseWatchExpiry _ | .tap _ _ | .key _ _ | .laneFrameDrop _ _ | .waitingTapTake _ | .validation _
  | .showSend _ _ | .rotation _ _ | .passageCommit _ | .headRecord _ | .closingRowOperation _
  | .passageWindowExpiry _ | .holdTimeoutExpiry _ | .passStatusCancellation _ | .liftRead _ | .passageRecordTake _
  | .journalAck | .journalReplay | .journalRead | .refundQuote | .refundRetire | .streamOpen | .streamData
  | .streamChunkRow | .streamSuspend | .streamResume | .streamClose | .streamAbort | .streamIdleExpiry | .sweepStep
  | .status | .restart | .config _ | .noticeMask | .noticeAck | .resetLineChange _ | .showSent _ => false

end Sys2Proof.Machine
end

