-- ==== Sys2Proof/Certificates/Slice0/Obligations.lean ====
section
/-! DEFINITION. The statements about the LG2460 that the provers are asked to prove. Each command's own effect is stated as the state it answers; what the commands leave
unchanged, and the laws every step keeps, are stated once for all of them. -/
open Sys2Proof Sys2Proof.Machine

/-! ### The part as a whole -/

/-- A step runs the command at the front of the queue, with the queue's rest. That commands wait in one queue, whose order decides which block acts next, and come into it
from outside, is the model's choice (log entries 37 and 38). -/
def Obligations.StepRunsFront : Prop :=
  ∀ (s : State) (c : Instr) (rest : List Instr), s.pending = c :: rest → step s = exec c { s with pending := rest }

/-- On an empty queue a step is one millisecond of the timebase: every measure of time runs on, and nothing else changes. That an idle step is a millisecond is the model's
choice (log entry 2), and the cycles it adds to the sub-second phase are a free number (log entry 4). -/
def Obligations.IdleStepIsOneMillisecond : Prop :=
  ∀ s : State, s.pending = [] → ∃ t, step s = .next t
    ∧ t.timebase = s.timebase + 1
    ∧ (∀ l : LaneNo, t.lane l =
        { s.lane l with
          presence := { (s.lane l).presence with remaining := countDown (s.lane l).presence.remaining }
          rotationLine := (s.lane l).rotationLine.tick
          driveWindow := countDown (s.lane l).driveWindow
          releaseWatch := countDown (s.lane l).releaseWatch })
    ∧ (∀ i : LiftNo, t.lift i =
        { s.lift i with
          lineState := { (s.lift i).lineState with remaining := countDown (s.lift i).lineState.remaining }
          carrierLine := (s.lift i).carrierLine.tick })
    ∧ t.serviceKey = { s.serviceKey with remaining := countDown s.serviceKey.remaining }
    ∧ t.resetLine = { s.resetLine with remaining := s.resetLine.remaining - 1 }
    ∧ (∃ cycles : Nat, t.calendar = { s.calendar with subSecondPhase := s.calendar.subSecondPhase + cycles })
    ∧ ∀ p, p ∉ [Part.timebase, .lanes, .lifts, .serviceKey, .resetLine, .calendar] → p.same s t

/-- After power-on reset the part is STARTING with TABLES_LOST latched and its NOTICE placed, the table is empty, and every block holds the values its reset rule gives. The
levels of the lines at power-on are the model's choice (log entry 7) and are not stated. That the sub-second phase is 0 (log entry 4), that the table reads as empty while it
is being cleared (log entry 27) and that no command waits (log entry 38) are the model's too. -/
def Obligations.ResetValues : Prop :=
  State.reset.trunk.partStatus = .starting
    ∧ (State.reset.trunk.condition .tablesLost).latched = true
    ∧ State.reset.trunk.pendingNotices = [{ condition := .tablesLost, detail := .empty }]
    ∧ (∀ c, c ≠ .tablesLost → (State.reset.trunk.condition c).latched = false)
    ∧ (∀ c, (State.reset.trunk.condition c).masked = false)
    ∧ State.reset.trunk.rxQueue = [] ∧ State.reset.trunk.placesUsed = 0
    ∧ State.reset.trunk.malformed = 0 ∧ State.reset.trunk.rxOverflow = 0
    ∧ State.reset.table.slots = [] ∧ State.reset.table.usedSlots = 0
    ∧ State.reset.arbiter = { pointer := 0, lastGroup := .lanes, lastTrunkRequester := .trunkOwners }
    ∧ (∀ c : ProductCode, State.reset.product c =
        { isDefined := false, kind := .multiDay, dayCount := 1, validFrom := 0, validTo := 239, liftMask := 0, rerideInterval := 0,
          groupAllowed := false, refundable := false, refundGrace := 0, peakRate := 0, regularRate := 0, lowRate := 0,
          refundFee := 0, rowCount := 0 })
    ∧ State.reset.protection = { mode := .unprotected, low := 0, high := 255, sense := .inside }
    ∧ State.reset.serviceKey.debounced = false
    ∧ State.reset.calendar.currentDay = none ∧ State.reset.calendar.secondOfDay = 0 ∧ State.reset.calendar.subSecondPhase = 0
    ∧ State.reset.timebase = 0 ∧ State.reset.routed = [] ∧ State.reset.trunk.transmitter = none
    ∧ (∀ d ≤ 239, State.reset.calendar.day d =
        { dayClass := .regular, operatingMinutes := 480, closedLiftMinutes := 0, creditPercent := 0, source := .computed,
          state := .ahead })
    ∧ (∀ l : LaneNo, (State.reset.lane l).presence.debounced = false ∧ (State.reset.lane l).effective = .detached
        ∧ (State.reset.lane l).configuredMode = .locked ∧ (State.reset.lane l).keyPosition = .normal
        ∧ (State.reset.lane l).actuationFail = false ∧ (State.reset.lane l).stuckOpen = false
        ∧ (∀ i : LiftNo, (State.reset.lane l).liftInOperation[i] = false)
        ∧ (State.reset.lane l).admission = none ∧ (State.reset.lane l).unlock = false
        ∧ (State.reset.lane l).driveWindow = none ∧ (State.reset.lane l).releaseWatch = none
        ∧ (State.reset.lane l).rowOps = [] ∧ (State.reset.lane l).showSlot = none ∧ (State.reset.lane l).sending = none
        ∧ (State.reset.lane l).primaryLift = 0 ∧ (State.reset.lane l).secondaryLift = none
        ∧ (State.reset.lane l).servedLift = none ∧ (State.reset.lane l).lastShown = none
        ∧ (State.reset.lane l).validationInFlight = false ∧ (State.reset.lane l).waitingTap = none
        ∧ (State.reset.lane l).counters = LaneCounters.zero ∧ (State.reset.lane l).linkErrors = 0
        ∧ (State.reset.lane l).lastRequest = 0 ∧ (State.reset.lane l).passageWindow = 8
        ∧ (State.reset.lane l).holdTimeout = 20)
    ∧ (∀ i : LiftNo, (State.reset.lift i).enabled = false ∧ (State.reset.lift i).resortLift = 0
        ∧ (State.reset.lift i).seatsPerCarrier = 4 ∧ (State.reset.lift i).corralLimit = 0
        ∧ (State.reset.lift i).state = .closedSchedule ∧ (State.reset.lift i).occupancy = 0
        ∧ (State.reset.lift i).reservations = [] ∧ (State.reset.lift i).holdQueue = [])
    ∧ State.reset.journal.ring = [] ∧ State.reset.journal.nextSequence = 1
    ∧ State.reset.journal.sendPosition = none ∧ State.reset.journal.replayCursor = none
    ∧ (∀ (i : LiftNo) (hour : Fin 24), State.reset.journal.bins[i][hour] = 0)
    ∧ (∀ i : LiftNo, State.reset.journal.liftOverflow[i] = 0) ∧ State.reset.journal.stationOverflow = 0
    ∧ State.reset.journal.lowMark = 1024 ∧ State.reset.journal.highMark = 3072 ∧ State.reset.journal.above = false
    ∧ State.reset.minimumPayout = 500 ∧ State.reset.calendar.closureThreshold = 60
    ∧ State.reset.stream =
        { state := .idle, generation := 0, sweepFlag := false, expectedChunk := 0, rowsApplied := 0, rowsRefused := 0,
          firstRefused := none, sweepCursor := 0, sweepDeleted := 0, sweepKeptBusy := 0, sweepKeptRefunded := 0,
          idleDeadline := none, chunk := none, raises := [] }
    ∧ State.reset.pending = []

/-- The state after power-on reset keeps every law the steps keep. Two parts of those laws are the model's readings: that no row stands while the memory clear runs (log
entry 27), and what a lane or lift that has still to take a station reset may hold (log entry 33). -/
def Obligations.ResetMeetsLaws : Prop :=
  State.reset.TableLaw ∧ State.reset.CountLaw ∧ State.reset.ListLaw ∧ State.reset.RefundLaw ∧ State.reset.ProductLaw
    ∧ State.reset.calendar.Law ∧ State.reset.LaneLaw ∧ State.reset.CounterLaw ∧ State.reset.GrantLaw ∧ State.reset.LiftLaw
    ∧ State.reset.PlaceLaw ∧ State.reset.journal.Law ∧ State.reset.trunk.Law

/-- Every command answers a next state, from every state, and so does every step; a command whose arrival does not stand answers the state as it was. That the latter changes
nothing is the model's choice (log entry 1), for no such arrival comes to the part. -/
def Obligations.CommandsAnswer : Prop :=
  (∀ c s, ∃ t, exec c s = .next t) ∧ (∀ s, ∃ t, step s = .next t)
    ∧ ∀ (c : Instr) (s : State), ¬ s.stands c → exec c s = .next s

/-- A command leaves unchanged every block it does not write; which blocks each command writes is listed by `Part.writtenBy`. That what one block hands another stands at
the block that hands it until it is taken is the model's choice (log entries 10 and 28). -/
def Obligations.BlocksKept : Prop :=
  ∀ c s t, exec c s = .next t → ∀ p, p ∉ Part.writtenBy c → p.same s t

/-- A command at one lane or lift leaves every other lane and lift unchanged. That the messages to a lift stand at the lane that hands them, and the answers at the lift,
is the model's choice (log entry 10). -/
def Obligations.OtherLanesAndLiftsKept : Prop :=
  ∀ c s t, exec c s = .next t →
    (∀ l : LaneNo, mayWriteLane c l = false → t.lane l = s.lane l)
      ∧ ∀ i : LiftNo, mayWriteLift c i = false → t.lift i = s.lift i

/-- Rows stand in rising slots of their own buckets, no UID twice and none 0, and none stands while the memory clear runs; every step keeps this. That none stands while
the clear runs is the model's reading and no rule's words: it holds the table empty from power-on on (log entry 27). -/
def Obligations.TableLawKept : Prop := ∀ s t, s.TableLaw → step s = .next t → t.TableLaw

/-- The used-slot count is the number of rows, and each product's row count the number of rows naming it; every step keeps this. That the count is 0 with the rows while
the memory clear runs is the model's reading (log entry 27). -/
def Obligations.CountLawKept : Prop := ∀ s t, s.TableLaw → s.CountLaw → step s = .next t → t.CountLaw

/-- Every row names a defined product and fits it: its day list is strictly ascending, no longer than the day count, and holds only days 0 to 239, as do the current day and
the stamps of the passages still to be written; every step keeps this. -/
def Obligations.ListLawKept : Prop := ∀ s t, s.CountLaw → s.ListLaw → step s = .next t → t.ListLaw

/-- A row carrying a refund is RETIRED, its balance not above what was paid; every step keeps this. -/
def Obligations.RefundLawKept : Prop := ∀ s t, s.RefundLaw → step s = .next t → t.RefundLaw

/-- Every defined product's fields lie in their ranges; every step keeps this. -/
def Obligations.ProductLawKept : Prop := ∀ s t, s.ProductLaw → step s = .next t → t.ProductLaw

/-- The days stand in order, and the clock and the records in their ranges; every step keeps this. -/
def Obligations.CalendarLawKept : Prop := ∀ s t, s.calendar.Law → step s = .next t → t.calendar.Law

/-- Every lane's derived state, its admission, its UNLOCK line and its windows agree, and its counters stay in their range, every counted tap a grant or a denial; every
step keeps this. Every step keeps the two ends of a grant together: a row names a pending lane exactly while that lane holds it, by its admission or by a closing row
operation still to be performed, and the lane's row-operation list stands in the order its operations were handed. That a lane which has still to take a station reset
holds no list, and names no row, follows the model's reading of when the list is emptied (log entry 33). -/
def Obligations.LaneLawKept : Prop :=
  (∀ s t, s.LaneLaw → step s = .next t → t.LaneLaw)
    ∧ (∀ s t, s.CounterLaw → step s = .next t → t.CounterLaw)
    ∧ ∀ s t, s.TableLaw → s.GrantLaw → step s = .next t → t.GrantLaw

/-- A lift holds requests only while it is in operation and has no room, its numbers in their ranges; every step keeps this. Every step also keeps that a lift's
reservation list leaves no place behind: each entry is of a place its lane has still to take, holds in an UNLOCKED admission, or has given back in a passage or release on
its way. What R78 says of one entry for each lane is not among the laws: a lane's stale place may stand beside its next (log entry 44). That a lift which has taken a
station reset before a lane holds nothing of it follows the model's reading of what is discarded (log entry 33). Of a lane that has taken a station reset before the lift
nothing is claimed of its places: the lift has still to drop them (log entry 51). -/
def Obligations.LiftLawKept : Prop :=
  (∀ s t, s.LiftLaw → step s = .next t → t.LiftLaw)
    ∧ ∀ s t, s.GrantLaw → s.PlaceLaw → step s = .next t → t.PlaceLaw

/-- The journal's ring holds at most 4,096 records with consecutive sequences, its positions name held records, and its marks stand in order; every step keeps this. -/
def Obligations.JournalLawKept : Prop := ∀ s t, s.journal.Law → step s = .next t → t.journal.Law

/-- The trunk port holds at most 32 requests and uses at most 16 reply places, and no condition stands twice in the pending notice list; every step keeps this. -/
def Obligations.TrunkLawKept : Prop := ∀ s t, s.trunk.Law → step s = .next t → t.trunk.Law

/-- While the mode is LOCKED no command but power-on reset changes a covered product's record, its row count apart, and none but DAY_OPEN's effect changes the protection. -/
def Obligations.LockedProtectionHolds : Prop :=
  ∀ c s t, s.protection.mode = .locked → c ≠ .powerOnReset → exec c s = .next t →
    (∀ code : ProductCode, s.protection.covers code.val = true →
        ∃ n, t.product code = { s.product code with rowCount := n })
      ∧ (c ≠ .protectionDayOpen → t.protection = s.protection)
      ∧ (c = .protectionDayOpen → t.protection = s.protection ∨ t.protection = { s.protection with mode := .keyed })

/-- An admission begins only in a validation the lane's own table-port grant performs, on a lane IN_SERVICE, for its served lift and a row that is held and ACTIVE. -/
def Obligations.AdmissionsBeginAtGrants : Prop :=
  ∀ c s t l a, exec c s = .next t → (s.lane l).admission = none → (t.lane l).admission = some a →
    c = .validation l ∧ (s.lane l).effective = .inService ∧ (s.lane l).servedLift = some a.lift
      ∧ s.nextGrant = some (.lane l)
      ∧ (∃ row, lookup s.table.slots a.uid = some (a.slot, row) ∧ row.status = .active ∧ row.pendingLane = none
          ∧ slotAt t.table.slots a.slot = some { row with pendingLane := some l }
          ∧ a.headsTotal = row.headcount)
      ∧ a.phase = none ∧ a.headsPassed = 0

/-- An owner's reply fills the reserved place: the request's kind plus 80 (hexadecimal), its tag, the reply code and the fields, padded to the length of replies of its
kind, and the place is freed. Of a request that several owners answer, each earlier answer leaves in the place what its owner did, and the last one fills and frees it, by
what all of them did. A reply code is coded by its place in section 10.6, and the fields of a reply have the length of their kind, whatever the code. That each owner
answers in a step of its own is the model's choice (log entry 34), as are the widths and orders of the reply fields that R197 leaves open (log entry 18) and the number
that names a place (log entry 41). -/
def Obligations.ReplyFillsPlace : Prop :=
  (∀ (s : State) (n : Nat) (p : ReservedPlace) (code : ReplyCode) (fields : List Byte), s.trunk.place n = some p →
      fields.length ≤ p.kind.replyLength →
      ∃ body, s.answer (some n) code fields =
          { s with trunk := { s.trunk with
              reserved := s.trunk.reserved.filter (fun q => q.number != n)
              filled := s.trunk.filled ++ [{ kind := p.kind.toByte + 0x80, tag := p.tag, body := body }] } }
        ∧ body.length = 1 + p.kind.replyLength ∧ body.head? = some code.code
        ∧ (∀ k < fields.length, body[k + 1]? = fields[k]?)
        ∧ ∀ k, fields.length ≤ k → k < p.kind.replyLength → body[k + 1]? = some 0)
    ∧ (∀ (s : State) (n : Nat) (p : ReservedPlace) (changed flagged : Bool) (store : Settings → Settings),
      s.trunk.place n = some p →
      (p.awaiting = 1 →
        ∃ code fields, s.jointAnswer (some n) changed flagged store = s.answer (some n) code fields
          ∧ (p.kind = .config → fields.length = 10 ∧ SettingsLayout (store p.stored) fields)
          ∧ (p.kind ≠ .config → fields = [])
          ∧ (p.flagged = true ∨ flagged = true → code = if p.kind = .config then .okClamped else .stillPresent)
          ∧ (p.flagged = false → flagged = false → (p.changed = true ∨ changed = true) → code = .ok)
          ∧ (p.flagged = false → flagged = false → p.changed = false → changed = false → code = .okNoChange))
      ∧ (2 ≤ p.awaiting →
        ∃ q reserved, s.jointAnswer (some n) changed flagged store =
            { s with trunk := { s.trunk with reserved := reserved } }
          ∧ q = { p with awaiting := p.awaiting - 1, stored := store p.stored, changed := q.changed, flagged := q.flagged }
          ∧ (q.changed = true ↔ p.changed = true ∨ changed = true) ∧ (q.flagged = true ↔ p.flagged = true ∨ flagged = true)
          ∧ { s.trunk with reserved := reserved }.place n = some q
          ∧ ∀ k, k ≠ n → { s.trunk with reserved := reserved }.place k = s.trunk.place k))
    ∧ [ReplyCode.ok, .okNoChange, .okClamped, .unknownKind, .starting, .wrongState, .range, .badField, .unknown, .noProduct,
        .bucketFull, .isProtected, .keyRequired, .productInUse, .dDecrease, .kindChange, .passBusy, .retiredLocal,
        .overconsumed, .futureDay, .dayOrder, .noDay, .blocked, .alreadyRetired, .notRefundable, .expired, .nothingUnused,
        .belowMinimum, .journalFull, .badSequence, .streamBusy, .noStream, .outOfOrder, .suspended, .stillPresent].map
        (·.code.toNat) = List.range 35
    ∧ [RequestKind.passRead, .usageMerge, .productRead, .calendarRead, .laneRead, .liftRead, .journalAck, .journalRead,
        .refundRequest, .streamOpen, .streamData, .streamClose, .streamAbort, .status, .config].map (·.replyLength)
        = [57, 30, 39, 9, 77, 98, 2, 135, 47, 1, 39, 17, 23, 45, 10]
    ∧ [RequestKind.passPut, .passSetStatus, .passDelete, .productPut, .productClear, .protectSet, .dayOpen, .dayClose, .time,
        .calendarPut, .laneRelease, .laneLock, .laneFaultClear, .laneConfig, .liftConfig, .journalReplay, .streamSuspend,
        .streamResume, .restart, .noticeMask, .noticeAck].map (·.replyLength) = List.replicate 21 0

/-- Re-derivation: the conditions of R53 decide in order; a state different from the one held is taken and shown, and an admission held in IN_SERVICE is first ended: its
place released or its hold left, and its closing row operation handed. The signal of OVERRIDE_FREE is GREEN, of FAULTED and OVERRIDE_SHUT RED, and of every other state
DARK. That a lane reads the day by the DAY_OPEN or DAY_CLOSE it has itself taken is the model's reading (log entry 20). -/
def Obligations.Rederivation : Prop :=
  (∀ (env : LaneEnv) (x : Lane), x.derived = x.effective → x.rederive env = x)
    ∧ (∀ (env : LaneEnv) (x : Lane), x.derived ≠ x.effective → (x.effective ≠ .inService ∨ x.admission = none) →
        x.rederive env =
          { x with
            effective := x.derived
            showSlot := some { signal := x.derived.signal, reason := .state x.derived, heads := 0 }
            lastShown := some { signal := x.derived.signal, reason := .state x.derived, heads := 0 } })
    ∧ (∀ (env : LaneEnv) (x : Lane) (a : Admission), x.derived ≠ x.effective → x.effective = .inService →
        x.admission = some a → x.resetsPending = 0 → env.discards[a.lift] = false →
        x.rederive env =
          { x with
            effective := x.derived
            admission := none
            rowOps := x.rowOps ++ [.closing a.slot a.uid]
            toLifts := x.toLifts.set a.lift (x.toLifts[a.lift] ++
              (match a.phase with
               | some .unlocked => [.release a.request]
               | some .hold => [.leave a.request]
               | none => []))
            showSlot := some { signal := x.derived.signal, reason := .state x.derived, heads := 0 }
            lastShown := some { signal := x.derived.signal, reason := .state x.derived, heads := 0 } })
    ∧ (EffectiveState.overrideFree.signal = .green
        ∧ (∀ e ∈ [EffectiveState.faulted, .overrideShut], e.signal = .red)
        ∧ ∀ e ∈ [EffectiveState.detached, .locked, .dayClosed, .noLift, .inService], e.signal = .dark)
    ∧ ∀ x : Lane,
        (x.presence.debounced = false → x.derived = .detached)
        ∧ (x.presence.debounced = true →
            ((x.actuationFail = true ∨ x.stuckOpen = true) → x.derived = .faulted)
            ∧ (x.actuationFail = false → x.stuckOpen = false →
                (x.keyPosition = .free → x.derived = .overrideFree)
                ∧ (x.keyPosition = .shut → x.derived = .overrideShut)
                ∧ (x.keyPosition = .normal →
                    (x.configuredMode = .locked → x.derived = .locked)
                    ∧ (x.configuredMode = .released →
                        (x.dayOpen = false → x.derived = .dayClosed)
                        ∧ (x.dayOpen = true → (x.derived = .noLift ↔ x.servedLift = none)
                            ∧ (x.derived = .inService ↔ x.servedLift ≠ none))))))

/-! ### Resets -/

/-- POWER_ON_RESET gives every block its power-on values and the part is STARTING; while it is, the table port grants nothing; MEMORY_CLEAR_DONE leaves every slot free,
the arbiter at its reset values and the part READY. From then on the arbiter serves the waiting requesters by R6. That POWER_ON_RESET keeps the level of every line and
begins each 20 ms measure at 0 ms is the model's choice (log entry 7), that the nine conditions R194 gives no detail at power-on hold an empty one is its choice too (log
entry 48), that the table reads as empty while the clear runs its reading (log entry 27), and so is that a sweep grant leaves the arbiter as it stands (log entry 15).
That the commands waiting are kept is the model's choice (log entry 38). -/
def Obligations.PowerOnClearsTable : Prop :=
  (∀ s : State, ∃ t, exec .powerOnReset s = .next t
      ∧ t.trunk = State.reset.trunk ∧ t.routed = [] ∧ t.table = State.reset.table ∧ t.arbiter = State.reset.arbiter
      ∧ t.products = State.reset.products ∧ t.protection = State.reset.protection
      ∧ t.serviceKey.debounced = false ∧ t.serviceKey.line = s.serviceKey.line
      ∧ t.serviceKey.remaining = (if s.serviceKey.line = true then some 100 else none)
      ∧ t.calendar = State.reset.calendar ∧ t.journal = State.reset.journal ∧ t.minimumPayout = 500
      ∧ t.stream = State.reset.stream ∧ t.timebase = 0
      ∧ (∀ l : LaneNo, t.lane l =
          { State.reset.lane l with
            presence := { line := (s.lane l).presence.line, debounced := false,
                          remaining := if (s.lane l).presence.line = true then some 500 else none }
            latchReleased := (s.lane l).latchReleased
            rotationLine := { active := (s.lane l).rotationLine.active, inactiveMs := 0 } })
      ∧ (∀ i : LiftNo, t.lift i =
          { State.reset.lift i with
            lineState := { line := (s.lift i).lineState.line, debounced := .closedSchedule,
                           remaining := if (s.lift i).lineState.line = .closedSchedule then none else some 1000 }
            carrierLine := { active := (s.lift i).carrierLine.active, inactiveMs := 0 } })
      ∧ t.resetLine = { asserted := s.resetLine.asserted, remaining := 10, armed := false }
      ∧ t.pending = s.pending ∧ t.nextGrant = none)
    ∧ (∀ s : State, s.trunk.partStatus = .starting → s.nextGrant = none)
    ∧ (∀ s : State, s.trunk.partStatus = .starting →
        exec .memoryClearDone s = .next
          { s with
            table := { s.table with slots := [], usedSlots := 0 }
            arbiter := { pointer := 0, lastGroup := .lanes, lastTrunkRequester := .trunkOwners }
            trunk := { s.trunk with partStatus := .ready } })
    ∧ (∀ s : State, s.trunk.partStatus = .ready →
        (∀ (l : LaneNo) (k : Nat), k < 12 → l.val = (s.arbiter.pointer.val + k) % 12 → (s.lane l).rowOps ≠ [] →
          (∀ j < k, ∀ m : LaneNo, m.val = (s.arbiter.pointer.val + j) % 12 → (s.lane m).rowOps = []) →
          (s.arbiter.lastGroup = .trunkAndStream ∨ (presentedIn s.routed [] = none ∧ s.stream.chunk = none)) →
          s.nextGrant = some (.lane l))
        ∧ (s.arbiter.lastGroup = .lanes ∨ (∀ l : LaneNo, (s.lane l).rowOps = []) →
          (presentedIn s.routed [] ≠ none → (s.stream.chunk = none ∨ s.arbiter.lastTrunkRequester = .streamUnit) →
            s.nextGrant = some .trunkOwners)
          ∧ (s.stream.chunk ≠ none → (presentedIn s.routed [] = none ∨ s.arbiter.lastTrunkRequester = .trunkOwners) →
            s.nextGrant = some .streamUnit))
        ∧ ((∀ l : LaneNo, (s.lane l).rowOps = []) → presentedIn s.routed [] = none → s.stream.chunk = none →
          (s.stream.state = .sweeping → s.nextGrant = some .sweep) ∧ (s.stream.state ≠ .sweeping → s.nextGrant = none)))
    ∧ (∀ (s : State) (l : LaneNo), ∃ next : LaneNo, next.val = (l.val + 1) % 12
        ∧ s.granted (.lane l) = { s with arbiter := { s.arbiter with pointer := next, lastGroup := .lanes } })
    ∧ (∀ s : State,
        s.granted .trunkOwners =
          { s with arbiter := { s.arbiter with lastGroup := .trunkAndStream, lastTrunkRequester := .trunkOwners } }
        ∧ s.granted .streamUnit =
          { s with arbiter := { s.arbiter with lastGroup := .trunkAndStream, lastTrunkRequester := .streamUnit } }
        ∧ s.granted .sweep = s)
    ∧ (∀ (before after : List Routed) (r : Routed), (∀ q ∈ before, q.usesPort = false) → r.usesPort = true →
        ((∀ q ∈ before, q.owner ≠ r.owner) → presentedIn (before ++ r :: after) [] = some r)
        ∧ ((∃ q ∈ before, q.owner = r.owner) → presentedIn (before ++ r :: after) [] = none))
    ∧ (∀ routed : List Routed, (∀ q ∈ routed, q.usesPort = false) → presentedIn routed [] = none)
    ∧ ∀ r : Routed, r.usesPort = true ↔
        r.kind ∈ [RequestKind.passPut, .passSetStatus, .passDelete, .passRead, .usageMerge, .productPut, .productClear]
          ∨ (r.kind = .refundRequest ∧ refundFormOk r.body = true)

/-- A station reset empties the queues of the trunk port, places the RESTART reply, raises RESTARTED with its NOTICE, keeps every row but for its pending lane, and is
then taken by each lane and each lift in an event of its own. That the resets asked for stand in a list, where a RESTART keeps its tag for its own reset, is the model's
choice (log entry 35); that the requests routed are discarded, handed settings as a free truth value has it, that a lane's row-operation list is emptied at the station
reset itself, and that the windows of a lane start afresh, are its readings (log entries 5, 11, 14 and 33). That a lane keeps, through its own reset, the taps emptied
from its waiting slot and not yet taken (log entry 17), and the day state it has taken (log entry 20), is the model's reading too: R66 lists neither. That what a lift has
handed a lane stays through the lane's reset, to be taken until the lift's own reset drops it, is the model's choice (log entry 51). -/
def Obligations.StationResetTaken : Prop :=
  (∀ (s : State) (asked : Option Tag) (rest : List (Option Tag)), s.trunk.restarts = asked :: rest →
      ∃ t, exec .stationReset s = .next t
        ∧ t.trunk.rxQueue = [] ∧ t.trunk.reserved = [] ∧ t.trunk.restarts = rest
        ∧ t.trunk.filled = (match asked with
            | some tag => [{ kind := 0xC1, tag := tag, body := [0] }]
            | none => [])
        ∧ (t.trunk.condition .restarted).latched = true
        ∧ (∀ c, c ≠ .restarted → t.trunk.condition c = s.trunk.condition c)
        ∧ t.trunk.pendingNotices = (if (s.trunk.condition .restarted).masked = true then []
            else [{ condition := .restarted, detail := .empty }])
        ∧ t.trunk.partStatus = s.trunk.partStatus ∧ t.trunk.malformed = s.trunk.malformed
        ∧ t.trunk.rxOverflow = s.trunk.rxOverflow ∧ t.trunk.raises = s.trunk.raises
        ∧ (s.trunk.transmitter = none → t.trunk.transmitter = none)
        ∧ (∀ x, s.trunk.transmitter = some x → t.trunk.transmitter = some { frame := x.frame, occupies := .nothing })
        ∧ t.routed = (if Config.handedSettingsSurviveReset = true then
            (s.routed.filter fun r => decide (r.kind = .config ∧ r.owner ≠ .trunkPort)).map fun r => { r with place := none }
          else [])
        ∧ (∀ slot, slotAt t.table.slots slot = (slotAt s.table.slots slot).map fun row => { row with pendingLane := none })
        ∧ t.table.usedSlots = s.table.usedSlots ∧ t.table.records = s.table.records ∧ t.table.raises = s.table.raises
        ∧ (∀ l : LaneNo, t.table.cancellations[l] = [])
        ∧ t.arbiter = { pointer := 0, lastGroup := .lanes, lastTrunkRequester := .trunkOwners }
        ∧ t.products = s.products ∧ t.protection = s.protection ∧ t.calendar = s.calendar
        ∧ t.journal = { s.journal with sendPosition := none, replayCursor := none }
        ∧ t.minimumPayout = s.minimumPayout
        ∧ t.stream =
            { state := .idle, generation := 0, sweepFlag := false, expectedChunk := 0, rowsApplied := 0, rowsRefused := 0,
              firstRefused := none, sweepCursor := 0, sweepDeleted := 0, sweepKeptBusy := 0, sweepKeptRefunded := 0,
              idleDeadline := none, chunk := none, raises := s.stream.raises }
        ∧ (∀ l : LaneNo, t.lane l = { s.lane l with rowOps := [], resetsPending := (s.lane l).resetsPending + 1 })
        ∧ ∀ i : LiftNo, t.lift i = { s.lift i with resetsPending := (s.lift i).resetsPending + 1 })
    ∧ (∀ (s : State) (l : LaneNo), (s.lane l).resetsPending ≠ 0 →
        ∃ x, exec (.laneStationReset l) s = .next (s.setLane l x)
          ∧ x.admission = none ∧ x.configuredMode = .locked ∧ x.validationInFlight = false ∧ x.waitingTap = none
          ∧ x.rowOps = [] ∧ x.lastRequest = 0 ∧ x.resetsPending = (s.lane l).resetsPending - 1
          ∧ x.effective = x.derived ∧ x.lastShown = some { signal := x.effective.signal, reason := .state x.effective, heads := 0 }
          ∧ x.showSlot = x.lastShown ∧ (x.unlock = true ↔ x.effective = .overrideFree)
          ∧ x.driveWindow = (if x.effective = .overrideFree ∧ x.latchReleased = false then some 250 else none)
          ∧ x.releaseWatch = (if x.effective ≠ .overrideFree ∧ x.presence.debounced = true ∧ x.stuckOpen = false
              ∧ x.latchReleased = true then some 250 else none)
          ∧ x.latchReleased = (s.lane l).latchReleased ∧ x.rotationLine = (s.lane l).rotationLine ∧ x.dayOpen = (s.lane l).dayOpen
          ∧ x.emptiedTaps = (s.lane l).emptiedTaps ∧ x.toLifts = (s.lane l).toLifts ∧ x.sending = (s.lane l).sending
          ∧ x.presence = (s.lane l).presence ∧ x.keyPosition = (s.lane l).keyPosition
          ∧ x.actuationFail = (s.lane l).actuationFail ∧ x.stuckOpen = (s.lane l).stuckOpen
          ∧ x.primaryLift = (s.lane l).primaryLift ∧ x.secondaryLift = (s.lane l).secondaryLift
          ∧ x.servedLift = (s.lane l).servedLift ∧ x.liftInOperation = (s.lane l).liftInOperation
          ∧ x.counters = (s.lane l).counters ∧ x.linkErrors = (s.lane l).linkErrors
          ∧ x.passageWindow = (s.lane l).passageWindow ∧ x.holdTimeout = (s.lane l).holdTimeout
          ∧ x.records = (s.lane l).records ∧ x.raises = (s.lane l).raises)
    ∧ ∀ (s : State) (i : LiftNo), (s.lift i).resetsPending ≠ 0 →
        ∃ t, exec (.liftStationReset i) s = .next t
          ∧ t.lift i =
              { s.lift i with
                occupancy := 0, reservations := [], holdQueue := [], answers := Vector.replicate 12 [],
                resetsPending := (s.lift i).resetsPending - 1 }
          ∧ ∀ l : LaneNo, t.lane l = { s.lane l with toLifts := (s.lane l).toLifts.set i [] }

/-- A RESTART asks for a station reset and leaves its reply to it; the cabinet line asks for one when it has been held asserted for 10 ms after a release of 10 ms, and
then for no other until it has been released again. The list of resets asked for is the model's choice (log entry 35). That a release of the line taken after its 10 ms
have run, and before CABINET_RESET_LINE is, starts the measure again and asks for nothing, is the model's choice (log entry 47). -/
def Obligations.RestartsAreAsked : Prop :=
  (∀ (s : State) (r : Routed) (n : Nat) (p : ReservedPlace), s.Routes .trunkPort .restart r → r.place = some n →
      s.trunk.place n = some p →
      exec .restart s = .next
        { s.dropNextFor .trunkPort with trunk := { s.trunk with restarts := s.trunk.restarts ++ [some p.tag] } })
    ∧ (∀ s : State, s.resetLine.asserted = true → s.resetLine.armed = true → s.resetLine.remaining = 0 →
        exec .cabinetResetLine s = .next
          { s with
            resetLine := { asserted := true, remaining := 0, armed := false }
            trunk := { s.trunk with restarts := s.trunk.restarts ++ [none] } })
    ∧ (∀ s : State, s.resetLine.asserted = true → exec (.resetLineChange false) s = .next
        { s with resetLine := { asserted := false, remaining := 10, armed := s.resetLine.armed } })
    ∧ ∀ s : State, s.resetLine.asserted = false → exec (.resetLineChange true) s = .next
        { s with resetLine := { asserted := true, remaining := 10,
                                armed := s.resetLine.armed || decide (s.resetLine.remaining = 0) } }

/-! ### The trunk port -/

/-- A frame of version 1 whose header's length covers a body of at least its kind's fixed fields is received, padding left aside, or dropped and counted while 32 requests
are held; one shorter than a header, of another version, whose header gives its body more bytes than follow, or whose body is too short for its kind, is counted as
malformed. A kind byte names a request by the table of section 10.7, and each kind's fixed fields have their own length. What a STREAM_DATA and a frame shorter than a
header must hold is the model's reading (log entry 12); that the RX_OVERFLOW raise waits in a queue of its source is its choice (log entry 28). -/
def Obligations.FramesReceived : Prop :=
  (∀ (s : State) (kind : Byte) (tag : Tag) (body padding : List Byte), body.length < 65536 →
      (∀ k, RequestKind.ofByte kind = some k → k.bodyLength body ≤ body.length) →
      exec (.trunkFrameReceive (trunkFrame kind tag body ++ padding)) s = .next
        { s with trunk :=
            if s.trunk.rxQueue.length < 32 then
              { s.trunk with rxQueue := s.trunk.rxQueue ++ [{ kind := kind, tag := tag, body := body }] }
            else
              { s.trunk with
                rxOverflow := bump 65535 s.trunk.rxOverflow
                raises := s.trunk.raises ++
                  [{ condition := .rxOverflow, detail := .receiveOverflow (bump 65535 s.trunk.rxOverflow) }] } })
    ∧ (∀ (s : State) (frame : List Byte), (frame.length < 6 ∨ frame.head? ≠ some 1) →
        exec (.trunkFrameReceive frame) s = .next
          { s with trunk := { s.trunk with malformed := bump 65535 s.trunk.malformed } })
    ∧ (∀ (s : State) (kind : Byte) (tag : Tag) (length : Nat) (rest : List Byte), length < 65536 → rest.length < length →
        exec (.trunkFrameReceive ([1, kind] ++ be tag.toNat 2 ++ be length 2 ++ rest)) s = .next
          { s with trunk := { s.trunk with malformed := bump 65535 s.trunk.malformed } })
    ∧ (∀ (s : State) (kind : Byte) (tag : Tag) (body padding : List Byte) (k : RequestKind), body.length < 65536 →
        RequestKind.ofByte kind = some k → body.length < k.bodyLength body →
        exec (.trunkFrameReceive (trunkFrame kind tag body ++ padding)) s = .next
          { s with trunk := { s.trunk with malformed := bump 65535 s.trunk.malformed } })
    ∧ (∀ (b : Byte) (k : RequestKind), RequestKind.ofByte b = some k ↔ k.toByte = b)
    ∧ [RequestKind.passPut, .passSetStatus, .passDelete, .passRead, .usageMerge].map (·.toByte) = [0x01, 0x02, 0x03, 0x04, 0x05]
    ∧ [RequestKind.productPut, .productClear, .productRead, .protectSet].map (·.toByte) = [0x08, 0x09, 0x0A, 0x0B]
    ∧ [RequestKind.dayOpen, .dayClose, .time, .calendarPut, .calendarRead].map (·.toByte) = [0x10, 0x11, 0x12, 0x13, 0x14]
    ∧ [RequestKind.laneRelease, .laneLock, .laneFaultClear, .laneConfig, .laneRead].map (·.toByte)
        = [0x18, 0x19, 0x1A, 0x1B, 0x1C]
    ∧ [RequestKind.liftConfig, .liftRead].map (·.toByte) = [0x20, 0x21]
    ∧ [RequestKind.journalAck, .journalReplay, .journalRead, .refundRequest].map (·.toByte) = [0x28, 0x29, 0x2A, 0x30]
    ∧ [RequestKind.streamOpen, .streamData, .streamSuspend, .streamResume, .streamClose, .streamAbort].map (·.toByte)
        = [0x38, 0x39, 0x3A, 0x3B, 0x3C, 0x3D]
    ∧ [RequestKind.status, .restart, .config, .noticeMask, .noticeAck].map (·.toByte) = [0x40, 0x41, 0x42, 0x43, 0x44]
    ∧ ∀ body : List Byte,
        [RequestKind.passPut, .passSetStatus, .passDelete, .passRead, .usageMerge].map (·.bodyLength body) = [36, 9, 8, 8, 9]
        ∧ [RequestKind.productPut, .productClear, .productRead, .protectSet].map (·.bodyLength body) = [34, 1, 1, 4]
        ∧ [RequestKind.dayOpen, .dayClose, .time, .calendarPut, .calendarRead].map (·.bodyLength body) = [1, 0, 4, 6, 1]
        ∧ [RequestKind.laneRelease, .laneLock, .laneFaultClear, .laneConfig, .laneRead].map (·.bodyLength body) = [1, 1, 1, 4, 1]
        ∧ [RequestKind.liftConfig, .liftRead].map (·.bodyLength body) = [6, 1]
        ∧ [RequestKind.journalAck, .journalReplay, .journalRead, .refundRequest].map (·.bodyLength body) = [4, 4, 1, 9]
        ∧ [RequestKind.streamOpen, .streamSuspend, .streamResume, .streamClose, .streamAbort].map (·.bodyLength body)
          = [2, 0, 0, 0, 0]
        ∧ (field body 2 1 ≤ 16 → RequestKind.streamData.bodyLength body = 3 + 36 * field body 2 1)
        ∧ (16 < field body 2 1 → RequestKind.streamData.bodyLength body = 3)
        ∧ [RequestKind.status, .restart, .config, .noticeMask, .noticeAck].map (·.bodyLength body) = [0, 0, 10, 2, 1]

/-- The request at the head of the receive queue is routed once a reply place is free: a place is reserved and the request handed to its owners; a frame of unknown kind,
a request other than STATUS while STARTING, and one that names no lane or lift of the part are answered at once. Each kind has its owner; a lane number of FF means all
lanes. That RANGE is answered at routing, and the number of a place, are the model's (log entries 13 and 41), and so is that an answer given at routing carries 0 in every
field of its kind, the UID and the day of a USAGE_MERGE answered STARTING among them (log entry 18). That a request of several owners is routed to each as an arrival of
its own is its choice (log entry 34). -/
def Obligations.RequestsRouted : Prop :=
  (∀ (s : State) (f : RxFrame) (rest : List RxFrame), s.trunk.rxQueue = f :: rest → s.trunk.placesUsed < 16 →
    (RequestKind.ofByte f.kind = none →
      exec .requestRoute s = .next
        { s with trunk := { s.trunk with rxQueue := rest
                                         filled := s.trunk.filled ++ [{ kind := 0xFF, tag := f.tag, body := [3] }] } })
    ∧ ∀ k, RequestKind.ofByte f.kind = some k →
      (s.trunk.partStatus = .starting → k ≠ .status →
        exec .requestRoute s = .next
          { s with trunk :=
              { s.trunk with
                rxQueue := rest
                filled := s.trunk.filled ++
                  [{ kind := f.kind + 0x80, tag := f.tag, body := replyBody k .starting [] }] } })
      ∧ (s.trunk.partStatus = .ready ∨ k = .status →
        (∀ code, k.owners f.body = .error code →
          code = .range ∧ exec .requestRoute s = .next
            { s with trunk :=
                { s.trunk with
                  rxQueue := rest
                  filled := s.trunk.filled ++ [{ kind := f.kind + 0x80, tag := f.tag, body := replyBody k .range [] }] } })
        ∧ ∀ owners, k.owners f.body = .ok owners →
          ∃ n p, (∀ q ∈ s.trunk.reserved, q.number ≠ n) ∧ p.number = n ∧ p.kind = k ∧ p.tag = f.tag
            ∧ p.awaiting = owners.length ∧ p.changed = false ∧ p.flagged = false
            ∧ exec .requestRoute s = .next
              { s with
                trunk := { s.trunk with rxQueue := rest, reserved := s.trunk.reserved ++ [p] }
                routed := s.routed ++ owners.map fun o =>
                  { owner := o, kind := k, body := f.body, place := some n } }))
  ∧ ∀ body : List Byte,
    (∀ k ∈ [RequestKind.passPut, .passSetStatus, .passDelete, .passRead, .usageMerge], k.owners body = .ok [.passTable])
    ∧ (∀ k ∈ [RequestKind.productPut, .productClear, .productRead, .protectSet], k.owners body = .ok [.productTable])
    ∧ (∀ k ∈ [RequestKind.dayOpen, .dayClose, .time, .calendarPut, .calendarRead], k.owners body = .ok [.calendar])
    ∧ (∀ k ∈ [RequestKind.laneRelease, .laneLock, .laneFaultClear],
      (field body 0 1 = 255 → k.owners body = .ok (laneNumbers.map .lane))
      ∧ (∀ l : LaneNo, field body 0 1 = l.val → k.owners body = .ok [.lane l])
      ∧ (12 ≤ field body 0 1 → field body 0 1 ≠ 255 → k.owners body = .error .range))
    ∧ (∀ k ∈ [RequestKind.laneConfig, .laneRead],
      (∀ l : LaneNo, field body 0 1 = l.val → k.owners body = .ok [.lane l])
      ∧ (12 ≤ field body 0 1 → k.owners body = .error .range))
    ∧ (∀ k ∈ [RequestKind.liftConfig, .liftRead],
      (∀ i : LiftNo, field body 0 1 = i.val → k.owners body = .ok [.lift i])
      ∧ (4 ≤ field body 0 1 → k.owners body = .error .range))
    ∧ (∀ k ∈ [RequestKind.journalAck, .journalReplay, .journalRead], k.owners body = .ok [.journal])
    ∧ RequestKind.refundRequest.owners body = .ok [.refundUnit]
    ∧ (∀ k ∈ [RequestKind.streamOpen, .streamData, .streamSuspend, .streamResume, .streamClose, .streamAbort],
      k.owners body = .ok [.streamUnit])
    ∧ ∀ k ∈ [RequestKind.status, .restart, .config, .noticeMask, .noticeAck], k.owners body = .ok [.trunkPort]

/-- The transmitter, once its frame has been sent, is given the oldest filled reply; else the oldest pending NOTICE, which stays in its list until it has been sent; else
the record the journal offers, whose position then goes to the next record held, and from the newest to none; else nothing. The tags of NOTICE and RECORD frames are free
values (log entry 3); that a RECORD carries 0 for a field it lacks is the model's choice (log entry 45), and that one event ends a sending and begins the next its reading
(log entries 29 and 39). The fields of the two bodies stand where section 10.7 puts them. -/
def Obligations.TransmitterChooses : Prop :=
  (∀ (s : State) (u : TrunkPort),
    u = (match s.trunk.transmitter with
      | some x => { s.trunk with
          transmitter := none
          pendingNotices := (match x.occupies with
            | .notice c => s.trunk.pendingNotices.eraseP fun n => n.condition = c
            | .replyPlace | .nothing => s.trunk.pendingNotices) }
      | none => s.trunk) →
    (∀ r rest, u.filled = r :: rest →
      exec .transmitFrame s = .next
        { s with trunk :=
            { u with filled := rest
                     transmitter := some { frame := [1, r.kind] ++ be r.tag.toNat 2 ++ be r.body.length 2 ++ r.body,
                                           occupies := .replyPlace } } })
    ∧ (∀ n rest, u.filled = [] → u.pendingNotices = n :: rest →
      ∃ tag : Tag, exec .transmitFrame s = .next
        { s with
          trunk := { u with transmitter := some { frame := [1, 0xF0] ++ be tag.toNat 2 ++ [0, 36] ++ noticeBody n,
                                                  occupies := .notice n.condition } }
          freeIndex := s.freeIndex + 1 })
    ∧ (∀ r, u.filled = [] → u.pendingNotices = [] →
      (∀ q, s.journal.sendPosition = some q → s.journal.recordAt q = some r →
        ∃ tag : Tag, exec .transmitFrame s = .next
          { s with
            trunk := { u with transmitter := some { frame := [1, 0xF1] ++ be tag.toNat 2 ++ [0, 29] ++ recordBody r false,
                                                    occupies := .nothing } }
            journal := { s.journal with sendPosition := s.journal.stepFrom q }
            freeIndex := s.freeIndex + 1 })
      ∧ ∀ q, s.journal.sendPosition = none → s.journal.replayCursor = some q → s.journal.recordAt q = some r →
        ∃ tag : Tag, exec .transmitFrame s = .next
          { s with
            trunk := { u with transmitter := some { frame := [1, 0xF1] ++ be tag.toNat 2 ++ [0, 29] ++ recordBody r true,
                                                    occupies := .nothing } }
            journal := { s.journal with replayCursor := s.journal.stepFrom q }
            freeIndex := s.freeIndex + 1 })
    ∧ (u.filled = [] → u.pendingNotices = [] → s.journal.sendPosition = none → s.journal.replayCursor = none →
      exec .transmitFrame s = .next { s with trunk := u }))
  ∧ (∀ (j : Journal) (before after : List JournalRecord) (r : JournalRecord), j.Law → j.ring = before ++ r :: after →
    j.recordAt r.sequence = some r ∧ j.stepFrom r.sequence = after.head?.map (·.sequence))
  ∧ (∀ n : Raise, NoticeLayout n (noticeBody n))
  ∧ (∀ (r : JournalRecord) (replay : Bool), RecordLayout r replay (recordBody r replay))
  ∧ [Condition.tablesLost, .restarted, .laneFault, .laneDetached, .journalHigh, .journalOverflow, .rxOverflow, .overconsumed,
      .streamDone, .streamTimeout].map (·.index.val) = List.range 10
  ∧ [RecordKind.passage, .free, .intrusion, .refund, .adjustment].map (·.code.toNat) = List.range 5

/-- The trunk port takes a raise: its detail is stored and its condition latched; a condition that was clear and is allowed gets a NOTICE, which replaces the one it may
already have in the list. The block that handed the raise is relieved of it and keeps everything else. That raises wait in one queue for each source, from which the
oldest is taken, the sources in any order, is the model's choice (log entry 28). That the NOTICE replaced may be the one being sent, and leaves the list with it, is its
reading (log entry 29). -/
def Obligations.RaisesTaken : Prop :=
  ∀ (s : State) (source : RaiseSource) (r : Raise) (rest : List Raise), s.raisesOf source = r :: rest →
    ∃ t u, exec (.noticeRaise source) s = .next t
      ∧ u = (match source with
        | .lane l => s.setLane l { s.lane l with raises := rest }
        | .journal => { s with journal := { s.journal with raises := rest } }
        | .passTable => { s with table := { s.table with raises := rest } }
        | .streamUnit => { s with stream := { s.stream with raises := rest } }
        | .trunkPort => { s with trunk := { s.trunk with raises := rest } })
      ∧ t = { u with trunk := { u.trunk with conditions := t.trunk.conditions, pendingNotices := t.trunk.pendingNotices } }
      ∧ t.raisesOf source = rest ∧ (∀ other, other ≠ source → t.raisesOf other = s.raisesOf other)
      ∧ t.trunk.condition r.condition =
          { latched := true, masked := (s.trunk.condition r.condition).masked, detail := r.detail }
      ∧ (∀ c, c ≠ r.condition → t.trunk.condition c = s.trunk.condition c)
      ∧ ((s.trunk.condition r.condition).latched = true ∨ (s.trunk.condition r.condition).masked = true →
          t.trunk.pendingNotices = s.trunk.pendingNotices)
      ∧ ((s.trunk.condition r.condition).latched = false → (s.trunk.condition r.condition).masked = false →
          ((∀ n ∈ s.trunk.pendingNotices, n.condition ≠ r.condition) →
            t.trunk.pendingNotices = s.trunk.pendingNotices ++ [r])
          ∧ (∀ before n after, s.trunk.pendingNotices = before ++ n :: after → n.condition = r.condition →
              (∀ m ∈ before, m.condition ≠ r.condition) → t.trunk.pendingNotices = before ++ r :: after))
      ∧ t.trunk = { s.trunk with conditions := t.trunk.conditions, pendingNotices := t.trunk.pendingNotices, raises := t.trunk.raises }

/-- NOTICE_MASK refuses bits 10 to 15; else every mask takes its flag, a latched condition that goes from masked to allowed has a NOTICE with its stored detail, and the
reply is OK_NO_CHANGE if no mask changed. The order in which several such NOTICEs join the list is not stated: it is the model's choice (log entry 46). -/
def Obligations.MasksTaken : Prop :=
  ∀ (s : State) (r : Routed), s.Routes .trunkPort .noticeMask r →
    (1024 ≤ field r.body 0 2 →
      exec .noticeMask s = .next ((s.dropNextFor .trunkPort).answer r.place .badField []))
    ∧ (field r.body 0 2 < 1024 →
      ((∀ c, (s.trunk.condition c).masked = (field r.body 0 2).testBit c.index.val) →
        exec .noticeMask s = .next ((s.dropNextFor .trunkPort).answer r.place .okNoChange []))
      ∧ ((∃ c, (s.trunk.condition c).masked ≠ (field r.body 0 2).testBit c.index.val) →
        ∃ u, exec .noticeMask s = .next ({ s.dropNextFor .trunkPort with trunk := u }.answer r.place .ok [])
          ∧ (∀ c, u.condition c = { s.trunk.condition c with masked := (field r.body 0 2).testBit c.index.val })
          ∧ (∀ c, (s.trunk.condition c).latched = true → (s.trunk.condition c).masked = true →
              (field r.body 0 2).testBit c.index.val = false →
              { condition := c, detail := (s.trunk.condition c).detail } ∈ u.pendingNotices)
          ∧ (∀ n ∈ s.trunk.pendingNotices, ∃ m ∈ u.pendingNotices, m.condition = n.condition)
          ∧ (∀ n ∈ u.pendingNotices, n ∈ s.trunk.pendingNotices ∨ ((s.trunk.condition n.condition).latched = true
              ∧ (s.trunk.condition n.condition).masked = true ∧ (field r.body 0 2).testBit n.condition.index.val = false
              ∧ n.detail = (s.trunk.condition n.condition).detail))
          ∧ (∃ joined, u.pendingNotices.map (·.condition) = s.trunk.pendingNotices.map (·.condition) ++ joined)
          ∧ u = { s.trunk with conditions := u.conditions, pendingNotices := u.pendingNotices }))

/-- NOTICE_ACK clears a latched condition; LANE_FAULT stays while any lane holds a latch, and JOURNAL_HIGH while the held count is above the low mark. That the twelve
lanes are read in one step is the model's choice (log entry 9). -/
def Obligations.NoticesAcknowledged : Prop :=
  ∀ (s : State) (r : Routed), s.Routes .trunkPort .noticeAck r →
    (9 < field r.body 0 1 → exec .noticeAck s = .next ((s.dropNextFor .trunkPort).answer r.place .badField []))
    ∧ ∀ c : Condition, field r.body 0 1 = c.index.val →
      ((s.trunk.condition c).latched = false →
        exec .noticeAck s = .next ((s.dropNextFor .trunkPort).answer r.place .okNoChange []))
      ∧ ((s.trunk.condition c).latched = true →
        ((c = .laneFault ∧ ∃ l : LaneNo, (s.lane l).actuationFail = true ∨ (s.lane l).stuckOpen = true)
            ∨ (c = .journalHigh ∧ s.journal.lowMark < s.journal.held) →
          exec .noticeAck s = .next ((s.dropNextFor .trunkPort).answer r.place .stillPresent []))
        ∧ ((c = .laneFault → ∀ l : LaneNo, (s.lane l).actuationFail = false ∧ (s.lane l).stuckOpen = false) →
            (c = .journalHigh → s.journal.held ≤ s.journal.lowMark) →
          ∃ u, exec .noticeAck s = .next ({ s.dropNextFor .trunkPort with trunk := u }.answer r.place .ok [])
            ∧ u.condition c = { s.trunk.condition c with latched := false }
            ∧ (∀ d, d ≠ c → u.condition d = s.trunk.condition d)
            ∧ u = { s.trunk with conditions := u.conditions }))

/-- A CONFIG is handed to the lanes, the refund unit, the calendar and the journal; each stores its settings clamped into their ranges, the low mark always below the high
one, and answers for the common reply whether it changed or clamped a value. That each lane holds its own settings, and that every owner takes them by a command of its
own, are the model's (log entries 8 and 34), and so is that each handed setting joins the requests routed behind those routed before, also where they name the same owner
(log entry 49). -/
def Obligations.ConfigTaken : Prop :=
  (∀ (s : State) (r : Routed) (n : Nat) (p : ReservedPlace), s.Routes .trunkPort .config r → r.place = some n →
      s.trunk.place n = some p →
      ∃ t q, exec (.config .trunkPort) s = .next t ∧ t.trunk.place n = some q ∧ q = { p with awaiting := 15 }
        ∧ (∀ k, k ≠ n → t.trunk.place k = s.trunk.place k)
        ∧ t.trunk.reserved = (s.trunk.reserved.map fun x => if x.number = n then { x with awaiting := 15 } else x)
        ∧ t =
          { s with
            trunk := { s.trunk with reserved := t.trunk.reserved }
            routed := (s.dropNextFor .trunkPort).routed
              ++ (laneNumbers.map fun l => { r with owner := .lane l })
              ++ [{ r with owner := .refundUnit }, { r with owner := .calendar }, { r with owner := .journal }] })
    ∧ (∀ (s : State) (l : LaneNo) (r : Routed), s.Routes (.lane l) .config r →
        ∃ window timeout, window = clamp 2 30 (field r.body 0 1) ∧ timeout = clamp 5 60 (field r.body 1 1)
          ∧ exec (.config (.lane l)) s = .next
            (((s.dropNextFor (.lane l)).setLane l { s.lane l with passageWindow := window, holdTimeout := timeout }).jointAnswer
              r.place
              (decide ((s.lane l).passageWindow ≠ window ∨ (s.lane l).holdTimeout ≠ timeout))
              (decide (window ≠ field r.body 0 1 ∨ timeout ≠ field r.body 1 1))
              fun v => { v with passageWindow := window, holdTimeout := timeout }))
    ∧ (∀ (s : State) (r : Routed), s.Routes .refundUnit .config r →
        exec (.config .refundUnit) s = .next
          ({ s.dropNextFor .refundUnit with minimumPayout := min 9999 (field r.body 2 2) }.jointAnswer r.place
            (decide (s.minimumPayout ≠ min 9999 (field r.body 2 2))) (decide (9999 < field r.body 2 2))
            fun v => { v with minimumPayout := min 9999 (field r.body 2 2) }))
    ∧ (∀ (s : State) (r : Routed), s.Routes .calendar .config r →
        exec (.config .calendar) s = .next
          ({ s.dropNextFor .calendar with
              calendar := { s.calendar with closureThreshold := min 1440 (field r.body 4 2) } }.jointAnswer r.place
            (decide (s.calendar.closureThreshold ≠ min 1440 (field r.body 4 2))) (decide (1440 < field r.body 4 2))
            fun v => { v with closureThreshold := min 1440 (field r.body 4 2) }))
    ∧ ∀ (s : State) (r : Routed), s.Routes .journal .config r →
        ∃ low high, high = clamp 2 4080 (field r.body 8 2) ∧ low = clamp 1 (high - 1) (field r.body 6 2)
          ∧ 1 ≤ low ∧ low < high ∧ high ≤ 4080
          ∧ exec (.config .journal) s = .next
            ({ s.dropNextFor .journal with
                journal := { s.journal with lowMark := low, highMark := high }.considerHigh }.jointAnswer r.place
              (decide (s.journal.lowMark ≠ low ∨ s.journal.highMark ≠ high))
              (decide (low ≠ field r.body 6 2 ∨ high ≠ field r.body 8 2))
              fun v => { v with lowMark := low, highMark := high })

/-- The reads are answered OK with the fields of their kind, as their owner stands, and RANGE or UNKNOWN where the rule says so; they write nothing but the reply. Each
field stands where the layout of its kind puts it, its most significant byte first, an enumerated value coded by its place where the manual first lists it. The order and
the widths the reply layouts leave open are the model's choice (log entry 18), as are the reading of several owners in one step and what counts as protected (log entries
9 and 19), the order of the lanes in LIFT_READ (log entry 43), and how a list longer than its layout is cut (log entries 21 and 44). -/
def Obligations.ReadsAnswer : Prop :=
  (∀ (s : State) (r : Routed), s.Routes .trunkPort .status r →
      exec .status s = .next ((s.dropNextFor .trunkPort).answer r.place .ok (statusBytes s))
        ∧ (statusBytes s).length = 45 ∧ StatusLayout s (statusBytes s))
    ∧ (∀ (s : State) (r : Routed), s.Presents .passRead r →
        (uidField r.body 0 = 0 → exec .passRead s = .next ((s.served r).answer r.place .badField []))
        ∧ (uidField r.body 0 ≠ 0 → lookup s.table.slots (uidField r.body 0) = none →
            exec .passRead s = .next ((s.served r).answer r.place .unknown []))
        ∧ ∀ slot row, uidField r.body 0 ≠ 0 → lookup s.table.slots (uidField r.body 0) = some (slot, row) →
            exec .passRead s = .next ((s.served r).answer r.place .ok (passRowBytes slot row))
              ∧ (passRowBytes slot row).length = 57 ∧ PassRowLayout slot row (passRowBytes slot row))
    ∧ (∀ (s : State) (r : Routed), s.Routes .productTable .productRead r →
        ∃ p c, p = s.product (byteField r.body 0) ∧ c = s.protection.covers (field r.body 0 1)
          ∧ exec .productRead s = .next ((s.dropNextFor .productTable).answer r.place .ok (productBytes p c))
          ∧ (productBytes p c).length = 39 ∧ ProductLayout p c (productBytes p c))
    ∧ (∀ (s : State) (r : Routed), s.Routes .calendar .calendarRead r →
        (239 < field r.body 0 1 →
          exec .calendarRead s = .next ((s.dropNextFor .calendar).answer r.place .range []))
        ∧ ∀ d, d = field r.body 0 1 → d ≤ 239 →
          ∃ bytes, exec .calendarRead s = .next ((s.dropNextFor .calendar).answer r.place .ok bytes) ∧ bytes.length = 9
            ∧ CalendarLayout (s.calendar.day d) (s.creditPercent d) (decide (s.calendar.currentDay = some d)) bytes)
    ∧ (∀ (s : State) (l : LaneNo) (r : Routed), s.Routes (.lane l) .laneRead r →
        exec (.laneRead l) s = .next ((s.dropNextFor (.lane l)).answer r.place .ok (laneBytes (s.lane l)))
          ∧ (laneBytes (s.lane l)).length = 77 ∧ LaneLayout (s.lane l) (laneBytes (s.lane l)))
    ∧ (∀ (s : State) (i : LiftNo) (r : Routed), s.Routes (.lift i) .liftRead r →
        ∃ served : List LaneNo, (∀ l, l ∈ served ↔ (s.lane l).servedLift = some i) ∧ served.Pairwise (· < ·)
          ∧ exec (.liftRead i) s = .next ((s.dropNextFor (.lift i)).answer r.place .ok (liftBytes (s.lift i) served))
          ∧ (liftBytes (s.lift i) served).length = 98 ∧ LiftLayout (s.lift i) served (liftBytes (s.lift i) served))
    ∧ (∀ (s : State) (r : Routed), s.Routes .journal .journalRead r →
        (field r.body 0 1 = 255 →
          exec .journalRead s = .next ((s.dropNextFor .journal).answer r.place .ok (journalBytes s.journal none))
            ∧ (journalBytes s.journal none).length = 135 ∧ JournalLayout s.journal none (journalBytes s.journal none))
        ∧ (∀ i : LiftNo, field r.body 0 1 = i.val →
          exec .journalRead s = .next ((s.dropNextFor .journal).answer r.place .ok (journalBytes s.journal (some i)))
            ∧ (journalBytes s.journal (some i)).length = 135
            ∧ JournalLayout s.journal (some i) (journalBytes s.journal (some i)))
        ∧ (4 ≤ field r.body 0 1 → field r.body 0 1 ≠ 255 →
          exec .journalRead s = .next ((s.dropNextFor .journal).answer r.place .range [])))
    ∧ (∀ (bytes : List Byte) (k : Nat) (b : Byte), bytes[k]? = some b → field bytes k 1 = b.toNat)
    ∧ (∀ (bytes : List Byte) (k len : Nat), k + len < bytes.length →
        field bytes k (len + 1) = field bytes k len * 256 + field bytes (k + len) 1)
    ∧ [PartStatus.starting, .ready].map (·.code.toNat) = List.range 2
    ∧ [DayState.ahead, .opened, .closed].map (·.code.toNat) = List.range 3
    ∧ [StreamState.idle, .opened, .suspended, .sweeping].map (·.code.toNat) = List.range 4
    ∧ [PassStatus.active, .blocked, .retired].map (·.code.toNat) = List.range 3
    ∧ [ProductKind.multiDay, .season].map (·.code.toNat) = List.range 2
    ∧ [DayClass.peak, .regular, .low].map (·.code.toNat) = List.range 3
    ∧ [CreditSource.computed, .frozen, .set].map (·.code.toNat) = List.range 3
    ∧ [KeyPosition.normal, .free, .shut].map (·.code.toNat) = List.range 3
    ∧ [ConfiguredMode.locked, .released].map (·.code.toNat) = List.range 2
    ∧ [EffectiveState.detached, .faulted, .overrideFree, .overrideShut, .locked, .dayClosed, .noLift, .inService].map
        (·.code.toNat) = List.range 8
    ∧ [Phase.hold, .unlocked].map (·.code.toNat) = List.range 2
    ∧ [DenyReason.laneLocked, .laneShut, .laneFault, .dayClosed, .noLift, .laneBusy, .unknownPass, .blocked, .retired,
        .noProduct, .notValidToday, .wrongLift, .passInUse, .tooSoon, .noDaysLeft].map (·.index.val) = List.range 15
    ∧ [LiftState.closedSchedule, .running, .stopped, .closedWeather].map (·.code.toNat) = List.range 4
    ∧ [Condition.tablesLost, .restarted, .laneFault, .laneDetached, .journalHigh, .journalOverflow, .rxOverflow,
        .overconsumed, .streamDone, .streamTimeout].map (·.index.val) = List.range 10

/-! ### Pass rows -/

/-- A PASS_PUT whose UID is not held inserts a row in the lowest-numbered free slot of the UID's bucket, every field as given, the last passage, the pending lane and the
refund absent; the used-slot count and the product's row count go up by one. -/
def Obligations.PassPutInserts : Prop :=
  ∀ (s : State) (r : Routed) (f : PassForm) (st : PassStatus) (slot : Nat),
    s.Presents .passPut r → f = passForm r.body → passStatusOf f.statusCode = some st →
    f.refusal (s.product f.product) s.calendar.currentDay = none →
    lookup s.table.slots f.uid = none → freeSlotFor s.table.slots f.uid = some slot →
    (slot / 8 = bucketOf f.uid ∧ slotAt s.table.slots slot = none
        ∧ ∀ k < slot, k / 8 = bucketOf f.uid → slotAt s.table.slots k ≠ none)
      ∧ ∃ slots, (∀ k, slotAt slots k = if k = slot then
            some { uid := f.uid, product := f.product, status := st, headcount := f.headcount, pricePerHead := f.price,
                   expiryDay := f.expiry.get, consumed := f.consumed, seasonDays := f.seasonDays,
                   lastCountedDay := f.lastCounted.get, lastPassage := none, pendingLane := none, refund := none,
                   generation := f.generation }
          else slotAt s.table.slots k)
        ∧ exec .passPut s = .next
          ({ s.served r with
              table := { s.table with slots := slots, usedSlots := s.table.usedSlots + 1 }
              products := s.products.set f.product
                { s.product f.product with rowCount := (s.product f.product).rowCount + 1 } }.answer r.place .ok [])

/-- A PASS_PUT whose UID is held writes the fields it carries, the day lists of two MULTI_DAY products joined and the counts of two SEASON products never lowered; it is
refused RETIRED_LOCAL where a row with a refund would not stay RETIRED, and OVERCONSUMED where the joined list would pass the day count. That a PASS_PUT refused
OVERCONSUMED raises no notice is the model's reading (log entry 36). -/
def Obligations.PassPutUpdates : Prop :=
  (∀ (s : State) (r : Routed) (f : PassForm) (st : PassStatus) (slot : Nat) (old : PassRow),
    s.Presents .passPut r → f = passForm r.body → passStatusOf f.statusCode = some st →
    f.refusal (s.product f.product) s.calendar.currentDay = none → lookup s.table.slots f.uid = some (slot, old) →
    (old.refund ≠ none → st ≠ .retired → exec .passPut s = .next ((s.served r).answer r.place .retiredLocal []))
    ∧ ((old.refund = none ∨ st = .retired) →
      ((s.product old.product).kind = .multiDay → (s.product f.product).kind = .multiDay →
        (s.product f.product).dayCount < (unionDays old.consumed f.consumed).length →
        exec .passPut s = .next ((s.served r).answer r.place .overconsumed []))
      ∧ ∀ row : PassRow,
        row.uid = old.uid → row.product = f.product → row.status = st → row.headcount = f.headcount →
        row.pricePerHead = f.price → row.expiryDay = f.expiry.get → row.generation = f.generation →
        row.lastPassage = old.lastPassage → row.pendingLane = old.pendingLane → row.refund = old.refund →
        (((s.product old.product).kind = .multiDay ∧ (s.product f.product).kind = .multiDay
            ∧ (unionDays old.consumed f.consumed).length ≤ (s.product f.product).dayCount
            ∧ row.consumed = unionDays old.consumed f.consumed ∧ row.seasonDays = f.seasonDays
            ∧ row.lastCountedDay = f.lastCounted.get)
          ∨ ((s.product old.product).kind = .season ∧ (s.product f.product).kind = .season
            ∧ row.consumed = f.consumed ∧ row.seasonDays = max old.seasonDays f.seasonDays
            ∧ row.lastCountedDay = laterDay old.lastCountedDay f.lastCounted.get)
          ∨ ((s.product old.product).kind ≠ (s.product f.product).kind ∧ row.consumed = f.consumed
            ∧ row.seasonDays = f.seasonDays ∧ row.lastCountedDay = f.lastCounted.get)) →
        exec .passPut s = .next
          (((((s.served r).writeRow slot row).moveCount old.product f.product).cancelFor old st).answer r.place .ok [])))
  ∧ ∀ stored given : List Nat, ascending stored = true →
      ascending (unionDays stored given) = true ∧ ∀ d, d ∈ unionDays stored given ↔ d ∈ stored ∨ d ∈ given

/-- A refused PASS_PUT writes nothing: the checks stand in their order, the fields first, then the product, the fields against it, the day list's length, the days still
to come, and the room in the bucket. The fields are read from their places in the pass row encoding. -/
def Obligations.PassPutRefused : Prop :=
  (∀ body : List Byte, passForm body =
    { uid := uidField body 0, product := byteField body 8, statusCode := field body 9 1, headcount := field body 10 1,
      expiry := { presence := field body 11 1, value := field body 12 1 }, generation := byteField body 13,
      price := field body 14 4, seasonDays := field body 18 1,
      lastCounted := { presence := field body 19 1, value := field body 20 1 }, listLength := field body 21 1,
      dayBytes := ((body.drop 22).take 14).map (·.toNat) })
  ∧ (∀ f : PassForm, f.consumed = f.dayBytes.take f.listLength)
  ∧ (∀ x : OptionalField, (x.presence = 1 → x.get = some x.value) ∧ (x.presence ≠ 1 → x.get = none))
  ∧ [0, 1, 2].map passStatusOf = [some .active, some .blocked, some .retired] ∧ (∀ n, 2 < n → passStatusOf n = none)
  ∧ ∀ (s : State) (r : Routed) (f : PassForm) (p : Product),
    s.Presents .passPut r → f = passForm r.body → p = s.product f.product →
    ((f.uid = 0 ∨ passStatusOf f.statusCode = none ∨ f.headcount < 1 ∨ 30 < f.headcount ∨ 999999 < f.price
        ∨ 1 < f.expiry.presence ∨ (f.expiry.presence = 1 ∧ 239 < f.expiry.value) ∨ 240 < f.seasonDays
        ∨ 1 < f.lastCounted.presence ∨ (f.lastCounted.presence = 1 ∧ 239 < f.lastCounted.value) ∨ 14 < f.listLength
        ∨ (∃ d ∈ f.consumed, 239 < d) ∨ ascending f.consumed = false) →
      exec .passPut s = .next ((s.served r).answer r.place .badField []))
    ∧ (f.fieldsOk = true →
      (p.isDefined = false → exec .passPut s = .next ((s.served r).answer r.place .noProduct []))
      ∧ (p.isDefined = true →
        (((p.groupAllowed = false ∧ 1 < f.headcount) ∨ (p.kind = .season ∧ f.consumed ≠ [])
            ∨ (p.kind = .multiDay ∧ (f.seasonDays ≠ 0 ∨ f.lastCounted.get ≠ none))) →
          exec .passPut s = .next ((s.served r).answer r.place .badField []))
        ∧ (f.fitsProduct p = true →
          (p.kind = .multiDay → p.dayCount < f.consumed.length →
            exec .passPut s = .next ((s.served r).answer r.place .overconsumed []))
          ∧ ((p.kind = .season ∨ f.consumed.length ≤ p.dayCount) →
            (∀ c, s.calendar.currentDay = some c → ((∃ d ∈ f.consumed, c < d) ∨ ∃ d, f.lastCounted.get = some d ∧ c < d) →
              exec .passPut s = .next ((s.served r).answer r.place .futureDay []))
            ∧ ((∀ c, s.calendar.currentDay = some c →
                  (∀ d ∈ f.consumed, d ≤ c) ∧ ∀ d, f.lastCounted.get = some d → d ≤ c) →
              lookup s.table.slots f.uid = none → (∀ k, k / 8 = bucketOf f.uid → slotAt s.table.slots k ≠ none) →
              exec .passPut s = .next ((s.served r).answer r.place .bucketFull []))))))

/-- PASS_SET_STATUS writes the status of a held row and nothing else of it; a status other than ACTIVE, and different, on a row with a pending lane hands that lane a
cancellation. -/
def Obligations.PassStatusSet : Prop :=
  ∀ (s : State) (r : Routed) (uid : Uid), s.Presents .passSetStatus r → uid = uidField r.body 0 →
    ((uid = 0 ∨ 2 < field r.body 8 1) → exec .passSetStatus s = .next ((s.served r).answer r.place .badField []))
    ∧ ∀ st : PassStatus, uid ≠ 0 → passStatusOf (field r.body 8 1) = some st →
      (lookup s.table.slots uid = none → exec .passSetStatus s = .next ((s.served r).answer r.place .unknown []))
      ∧ ∀ (slot : Nat) (row : PassRow), lookup s.table.slots uid = some (slot, row) →
        (row.refund ≠ none → st ≠ .retired → exec .passSetStatus s = .next ((s.served r).answer r.place .retiredLocal []))
        ∧ ((row.refund = none ∨ st = .retired) →
          (st = row.status → exec .passSetStatus s = .next ((s.served r).answer r.place .okNoChange []))
          ∧ (st ≠ row.status → exec .passSetStatus s = .next
              ({ s.served r with
                  table :=
                    { s.table with
                      slots := putSlot s.table.slots slot { row with status := st }
                      cancellations := (match row.pendingLane with
                        | none => s.table.cancellations
                        | some l => if st = PassStatus.active then s.table.cancellations
                            else s.table.cancellations.set l (s.table.cancellations[l] ++ [uid])) } }.answer r.place .ok [])))

/-- PASS_DELETE frees the slot of a held row without a pending lane and lowers the used-slot count and the product's row count; the UID is then not held. A UID is
held in the slot of its own bucket whose row carries it, and in no other. -/
def Obligations.PassDeleted : Prop :=
  (∀ (s : State) (r : Routed) (uid : Uid), s.Presents .passDelete r → uid = uidField r.body 0 →
    (uid = 0 → exec .passDelete s = .next ((s.served r).answer r.place .badField []))
    ∧ (uid ≠ 0 → lookup s.table.slots uid = none → exec .passDelete s = .next ((s.served r).answer r.place .unknown []))
    ∧ ∀ (slot : Nat) (row : PassRow), uid ≠ 0 → lookup s.table.slots uid = some (slot, row) →
      (row.pendingLane ≠ none → exec .passDelete s = .next ((s.served r).answer r.place .passBusy []))
      ∧ (row.pendingLane = none →
        ∃ slots, exec .passDelete s = .next
            ({ s.served r with
                table := { s.table with slots := slots, usedSlots := s.table.usedSlots - 1 }
                products := s.products.set row.product
                  { s.product row.product with rowCount := (s.product row.product).rowCount - 1 } }.answer r.place .ok [])
          ∧ (s.TableLaw → (∀ k : Nat, slotAt slots k = if k = slot then none else slotAt s.table.slots k)
              ∧ lookup slots uid = none)))
  ∧ (∀ uid : Uid, bucketOf uid =
      ((uid.toNat / 281474976710656) ^^^ (uid.toNat / 4294967296 % 65536) ^^^ (uid.toNat / 65536 % 65536) ^^^ (uid.toNat % 65536)) % 8192)
  ∧ ∀ (s : State) (uid : Uid),
    (∀ slot row, lookup s.table.slots uid = some (slot, row) →
      slot / 8 = bucketOf uid ∧ slotAt s.table.slots slot = some row ∧ row.uid = uid)
    ∧ (lookup s.table.slots uid = none ↔
        ∀ slot row, slot / 8 = bucketOf uid → slotAt s.table.slots slot = some row → row.uid ≠ uid)
    ∧ (s.TableLaw →
      (∀ slot row, slotAt s.table.slots slot = some row → row.uid = uid → lookup s.table.slots uid = some (slot, row))
      ∧ lookup s.table.slots 0 = none)

/-- USAGE_MERGE checks the UID, the day and the product; a SEASON row counts a later day; a MULTI_DAY row takes a new day while it has room, lowering the balance of a
refund paid too much when the journal takes the ADJUSTMENT record, and is refused JOURNAL_FULL when it does not. The order of the reply's fields is the model's choice
(log entry 18). That only a merge raises OVERCONSUMED is its reading (log entry 36). -/
def Obligations.UsageMerged : Prop :=
  (∀ (uid : Uid) (d : Nat) (f : MergeFigures),
    (mergeBytes uid d (some f)).length = 30 ∧ MergeLayout uid d f (mergeBytes uid d (some f)))
  ∧ (∀ row : PassRow, seasonFigures row =
      { listLength := 0, dayCount := 0, seasonDays := row.seasonDays, lastCounted := row.lastCountedDay,
        adjusted := { perHead := 0, total := 0, balance := 0, sequence := 0 } })
  ∧ (∀ (row : PassRow) (p : Product) (a : Adjusted), multiDayFigures row p a =
      { listLength := row.consumed.length, dayCount := p.dayCount, seasonDays := 0, lastCounted := none, adjusted := a })
  ∧ Adjusted.absent = { perHead := 0, total := 0, balance := 0, sequence := 0 }
  ∧ (∀ (row : PassRow) (perHead second : Nat) (day : Option Nat), adjustmentRecord row perHead day second =
      { kind := .adjustment, second := second, day := day, lane := none, lift := none, uid := some row.uid, headIndex := none,
        newDay := none, amountPerHead := some perHead, headcount := some row.headcount, unusedDays := none })
  ∧ ∀ (s : State) (r : Routed) (uid : Uid) (d : Nat), s.Presents .usageMerge r → uid = uidField r.body 0 →
    d = field r.body 8 1 →
    ((uid = 0 ∨ lookup s.table.slots uid = none) →
      exec .usageMerge s = .next ((s.served r).answer r.place .unknown (uidBytes uid ++ be d 1)))
    ∧ ∀ (slot : Nat) (row : PassRow) (p : Product), uid ≠ 0 → lookup s.table.slots uid = some (slot, row) → p = s.product row.product →
      (239 < d → exec .usageMerge s = .next ((s.served r).answer r.place .range (uidBytes uid ++ be d 1)))
      ∧ (d ≤ 239 → (s.calendar.currentDay = none ∨ ∃ c, s.calendar.currentDay = some c ∧ c < d) →
        exec .usageMerge s = .next ((s.served r).answer r.place .futureDay (uidBytes uid ++ be d 1)))
      ∧ ∀ c, s.calendar.currentDay = some c → d ≤ c → c ≤ 239 →
        (p.isDefined = false → exec .usageMerge s = .next ((s.served r).answer r.place .noProduct (uidBytes uid ++ be d 1)))
        ∧ (p.isDefined = true → p.kind = .season →
          (∀ last, row.lastCountedDay = some last → d ≤ last →
            exec .usageMerge s = .next ((s.served r).answer r.place .okNoChange
              (mergeBytes uid d (some (seasonFigures row)))))
          ∧ ((∀ last, row.lastCountedDay = some last → last < d) →
            ∃ counted, counted = { row with seasonDays := min 240 (row.seasonDays + 1), lastCountedDay := some d }
              ∧ exec .usageMerge s = .next (((s.served r).writeRow slot counted).answer r.place .ok
                (mergeBytes uid d (some (seasonFigures counted))))))
        ∧ (p.isDefined = true → p.kind = .multiDay →
          (d ∈ row.consumed →
            exec .usageMerge s = .next ((s.served r).answer r.place .okNoChange
              (mergeBytes uid d (some (multiDayFigures row p Adjusted.absent)))))
          ∧ (d ∉ row.consumed → p.dayCount ≤ row.consumed.length →
            exec .usageMerge s = .next
              ({ s.served r with
                  table := { s.table with raises := s.table.raises ++ [({ condition := .overconsumed, detail := .merge uid d } : Raise)] } }.answer
                r.place .overconsumed (uidBytes uid ++ be d 1)))
          ∧ (d ∉ row.consumed → row.consumed.length < p.dayCount →
            ((row.refund = none ∨ ∃ f, row.refund = some f
                ∧ f.balancePerHead ≤ (s.figures p row (insertDay d row.consumed)).net) →
              ∃ held, held = { row with consumed := insertDay d row.consumed }
                ∧ exec .usageMerge s = .next (((s.served r).writeRow slot held).answer r.place .ok
                  (mergeBytes uid d (some (multiDayFigures held p Adjusted.absent)))))
            ∧ ∀ f net, row.refund = some f → net = (s.figures p row (insertDay d row.consumed)).net →
              net < f.balancePerHead →
              (4096 ≤ s.journal.held →
                exec .usageMerge s = .next ((s.served r).answer r.place .journalFull (uidBytes uid ++ be d 1)))
              ∧ (s.journal.held < 4096 →
                ∃ held, held =
                    { row with consumed := insertDay d row.consumed, refund := some { f with balancePerHead := net } }
                  ∧ exec .usageMerge s = .next
                    (({ s.served r with
                          journal := (s.journal.append none
                            (adjustmentRecord row (f.balancePerHead - net) (some c) s.calendar.secondOfDay)).considerHigh }.writeRow
                        slot held).answer r.place .ok
                      (mergeBytes uid d (some (multiDayFigures held p
                        { perHead := f.balancePerHead - net, total := (f.balancePerHead - net) * row.headcount, balance := net,
                          sequence := s.journal.nextSequence })))))))

/-! ### Products and their protection -/

/-- PRODUCT_PUT writes every field it carries and keeps the row count, unless a field is out of range, the kind would change, or the day count would fall; PRODUCT_CLEAR
makes a product without rows undefined. The fields are read in the order of R16. -/
def Obligations.ProductsWritten : Prop :=
  (∀ body : List Byte, productForm body =
    { code := byteField body 0, kindCode := field body 1 1, dayCount := field body 2 1, validFrom := field body 3 1,
      validTo := field body 4 1, liftMask := BitVec.ofNat 64 (field body 5 8), rerideInterval := field body 13 2,
      groupAllowed := field body 15 1, refundable := field body 16 1, refundGrace := field body 17 1,
      peakRate := field body 18 4, regularRate := field body 22 4, lowRate := field body 26 4, refundFee := field body 30 4 })
  ∧ [0, 1].map productKindOf = [some .multiDay, some .season] ∧ (∀ n, 1 < n → productKindOf n = none)
  ∧ (∀ (s : State) (r : Routed) (f : ProductForm), s.Presents .productPut r → f = productForm r.body →
    s.protectionRefusal f.code = none →
    (1 < f.kindCode → exec .productPut s = .next ((s.served r).answer r.place .badField []))
    ∧ ∀ kind : ProductKind, productKindOf f.kindCode = some kind →
      (((kind = .multiDay ∧ (f.dayCount < 1 ∨ 14 < f.dayCount)) ∨ (kind = .season ∧ f.refundable = 1) ∨ 239 < f.validFrom
          ∨ 239 < f.validTo ∨ f.validTo < f.validFrom ∨ 3600 < f.rerideInterval ∨ 30 < f.refundGrace ∨ 99999 < f.peakRate
          ∨ 99999 < f.regularRate ∨ 99999 < f.lowRate ∨ 99999 < f.refundFee ∨ 1 < f.groupAllowed ∨ 1 < f.refundable) →
        exec .productPut s = .next ((s.served r).answer r.place .badField []))
      ∧ (f.fieldsOk kind = true →
        ((s.product f.code).isDefined = true → kind ≠ (s.product f.code).kind →
          exec .productPut s = .next ((s.served r).answer r.place .kindChange []))
        ∧ ((s.product f.code).isDefined = true → kind = .multiDay → (s.product f.code).kind = .multiDay →
            f.dayCount < (s.product f.code).dayCount →
          exec .productPut s = .next ((s.served r).answer r.place .dDecrease []))
        ∧ (((s.product f.code).isDefined = false
              ∨ (kind = (s.product f.code).kind ∧ (kind = .season ∨ (s.product f.code).dayCount ≤ f.dayCount))) →
          exec .productPut s = .next
            ({ s.served r with
                products := s.products.set f.code
                 { isDefined := true, kind := kind, dayCount := if kind = ProductKind.season then 0 else f.dayCount,
                   validFrom := f.validFrom, validTo := f.validTo, liftMask := f.liftMask,
                   rerideInterval := f.rerideInterval, groupAllowed := decide (f.groupAllowed = 1),
                   refundable := decide (f.refundable = 1), refundGrace := f.refundGrace, peakRate := f.peakRate,
                   regularRate := f.regularRate, lowRate := f.lowRate, refundFee := f.refundFee,
                   rowCount := (s.product f.code).rowCount } }.answer r.place .ok []))))
  ∧ ∀ (s : State) (r : Routed) (code : ProductCode), s.Presents .productClear r → code = byteField r.body 0 →
    s.protectionRefusal code = none →
    (0 < (s.product code).rowCount → exec .productClear s = .next ((s.served r).answer r.place .productInUse []))
    ∧ ((s.product code).rowCount = 0 →
      ((s.product code).isDefined = false → exec .productClear s = .next ((s.served r).answer r.place .okNoChange []))
      ∧ ((s.product code).isDefined = true → exec .productClear s = .next
          ({ s.served r with products := s.products.set code Product.undefinedRecord }.answer r.place .ok [])))

/-- A PRODUCT_PUT or PRODUCT_CLEAR for a protected code, one inside or outside the window by its sense, is refused KEY_REQUIRED in KEYED while the key is released and
PROTECTED in LOCKED, before any other check; every other passes the protection check. That the key's debounced level is the one that stands at the table port's grant is the
model's reading (log entry 25). -/
def Obligations.ProtectionGates : Prop :=
  (∀ (p : Protection) (code : Nat),
    (p.sense = .inside → (p.covers code = true ↔ p.low ≤ code ∧ code ≤ p.high))
    ∧ (p.sense = .outside → (p.covers code = true ↔ code < p.low ∨ p.high < code)))
  ∧ (∀ (s : State) (r : Routed) (code : ProductCode), s.Presents .productPut r → code = (productForm r.body).code →
    (s.protection.covers code.val = true → s.protection.mode = .keyed → s.serviceKey.debounced = false →
      exec .productPut s = .next ((s.served r).answer r.place .keyRequired []))
    ∧ (s.protection.covers code.val = true → s.protection.mode = .locked →
      exec .productPut s = .next ((s.served r).answer r.place .isProtected []))
    ∧ ((s.protection.covers code.val = false ∨ s.protection.mode = .unprotected
          ∨ (s.protection.mode = .keyed ∧ s.serviceKey.debounced = true)) →
      ∃ reply t, reply ≠ .keyRequired ∧ reply ≠ .isProtected ∧ exec .productPut s = .next (State.answer t r.place reply [])
        ∧ t.trunk = s.trunk))
  ∧ ∀ (s : State) (r : Routed) (code : ProductCode), s.Presents .productClear r → code = byteField r.body 0 →
    (s.protection.covers code.val = true → s.protection.mode = .keyed → s.serviceKey.debounced = false →
      exec .productClear s = .next ((s.served r).answer r.place .keyRequired []))
    ∧ (s.protection.covers code.val = true → s.protection.mode = .locked →
      exec .productClear s = .next ((s.served r).answer r.place .isProtected []))
    ∧ ((s.protection.covers code.val = false ∨ s.protection.mode = .unprotected
          ∨ (s.protection.mode = .keyed ∧ s.serviceKey.debounced = true)) →
      ∃ reply t, reply ≠ .keyRequired ∧ reply ≠ .isProtected ∧ exec .productClear s = .next (State.answer t r.place reply [])
        ∧ t.trunk = s.trunk)

/-- PROTECT_SET is taken by the mode that stands: in LOCKED a LOCKED is answered OK_NO_CHANGE and any other refused; in KEYED the key must be asserted. The service key
follows its line after 100 ms, and a DAY_OPEN the product table takes turns LOCKED into KEYED. That a change of the key's line taken after the 100 ms have run, and before
SERVICE_KEY_DEBOUNCE_EXPIRY is, stops or restarts the debounce, is the model's choice (log entry 47), and so is the line's level as operand (log entry 31). -/
def Obligations.ProtectionSet : Prop :=
  (∀ body : List Byte, protectForm body =
    { modeCode := field body 0 1, low := field body 1 1, high := field body 2 1, senseCode := field body 3 1 })
  ∧ [0, 1, 2].map protectionModeOf = [some .unprotected, some .keyed, some .locked] ∧ (∀ n, 2 < n → protectionModeOf n = none)
  ∧ [0, 1].map windowSenseOf = [some .inside, some .outside] ∧ (∀ n, 1 < n → windowSenseOf n = none)
  ∧ (∀ (s : State) (r : Routed) (f : ProtectForm), s.Routes .productTable .protectSet r → f = protectForm r.body →
    (2 < f.modeCode → exec .protectSet s = .next ((s.dropNextFor .productTable).answer r.place .badField []))
    ∧ ∀ mode, protectionModeOf f.modeCode = some mode →
      (s.protection.mode = .locked → mode = .locked →
        exec .protectSet s = .next ((s.dropNextFor .productTable).answer r.place .okNoChange []))
      ∧ (s.protection.mode = .locked → mode ≠ .locked →
        exec .protectSet s = .next ((s.dropNextFor .productTable).answer r.place .isProtected []))
      ∧ (s.protection.mode = .keyed → s.serviceKey.debounced = false →
        exec .protectSet s = .next ((s.dropNextFor .productTable).answer r.place .keyRequired []))
      ∧ ((s.protection.mode = .unprotected ∨ (s.protection.mode = .keyed ∧ s.serviceKey.debounced = true)) →
        ((1 < f.senseCode ∨ f.high < f.low) →
          exec .protectSet s = .next ((s.dropNextFor .productTable).answer r.place .badField []))
        ∧ ∀ sense, windowSenseOf f.senseCode = some sense → f.low ≤ f.high →
          exec .protectSet s = .next
            ({ s.dropNextFor .productTable with
                protection := { mode := mode, low := f.low, high := f.high, sense := sense } }.answer r.place .ok [])))
  ∧ (∀ (s : State) (asserted : Bool), asserted ≠ s.serviceKey.line →
      exec (.serviceKeyLineChange asserted) s = .next
        { s with serviceKey := { line := asserted, debounced := s.serviceKey.debounced,
                                 remaining := if asserted = s.serviceKey.debounced then none else some 100 } })
  ∧ (∀ s : State, s.serviceKey.remaining = some 0 →
      exec .serviceKeyDebounceExpiry s = .next
        { s with serviceKey := { line := s.serviceKey.line, debounced := s.serviceKey.line, remaining := none } })
  ∧ ∀ s : State, s.calendar.toProductTable ≠ 0 →
      exec .protectionDayOpen s = .next
        { s with
          calendar := { s.calendar with toProductTable := s.calendar.toProductTable - 1 }
          protection := { s.protection with
            mode := match s.protection.mode with
              | .locked => .keyed
              | .keyed => .keyed
              | .unprotected => .unprotected } }

/-! ### Calendar and clock -/

/-- DAY_OPEN opens a day after the current one and DAY_CLOSE closes it, freezing a COMPUTED credit; the lanes, the journal and the product table are handed the effects,
and each lane and the journal takes its own. The credit of a COMPUTED day is worked out from the record and the lifts as it is read, that of a FROZEN or SET day is the stored
one. That a lane keeps the day state it has taken as a field of its own is the model's reading (log entry 20). -/
def Obligations.DaysOpenAndClose : Prop :=
  (∀ (s : State) (d operating : Nat),
    operating = (s.calendar.day d).operatingMinutes * liftNumbers.countP (fun i => (s.lift i).enabled) →
    ((s.calendar.day d).source ≠ .computed → s.creditPercent d = (s.calendar.day d).creditPercent)
    ∧ ((s.calendar.day d).source = .computed →
      (s.calendar.closureThreshold ≤ (s.calendar.day d).closedLiftMinutes → 0 < operating →
        s.creditPercent d = min 100 (100 * (s.calendar.day d).closedLiftMinutes / operating))
      ∧ ((s.calendar.day d).closedLiftMinutes < s.calendar.closureThreshold ∨ operating = 0 → s.creditPercent d = 0)))
  ∧ (∀ (s : State) (r : Routed) (n : Nat), s.Routes .calendar .dayOpen r → n = field r.body 0 1 →
    (239 < n → exec .dayOpen s = .next ((s.dropNextFor .calendar).answer r.place .range []))
    ∧ (n ≤ 239 → (∃ d, s.calendar.currentDay = some d ∧ (s.calendar.day d).state = .opened) →
      exec .dayOpen s = .next ((s.dropNextFor .calendar).answer r.place .wrongState []))
    ∧ (n ≤ 239 → (∃ d, s.calendar.currentDay = some d ∧ (s.calendar.day d).state ≠ .opened ∧ n ≤ d) →
      exec .dayOpen s = .next ((s.dropNextFor .calendar).answer r.place .dayOrder []))
    ∧ (n ≤ 239 → (∀ d, s.calendar.currentDay = some d → (s.calendar.day d).state ≠ .opened ∧ d < n) →
      ∃ c, exec .dayOpen s = .next ({ s.dropNextFor .calendar with calendar := c }.answer r.place .ok [])
        ∧ c.currentDay = some n ∧ c.day n = { s.calendar.day n with state := .opened }
        ∧ (∀ d ≤ 239, d ≠ n → c.day d = s.calendar.day d)
        ∧ (∀ l : LaneNo, c.toLanes[l] = s.calendar.toLanes[l] ++ [.opened])
        ∧ c.toJournal = s.calendar.toJournal + 1 ∧ c.toProductTable = s.calendar.toProductTable + 1
        ∧ c.secondOfDay = s.calendar.secondOfDay ∧ c.subSecondPhase = s.calendar.subSecondPhase
        ∧ c.closureThreshold = s.calendar.closureThreshold))
  ∧ (∀ (s : State) (r : Routed), s.Routes .calendar .dayClose r →
    ((∀ d, s.calendar.currentDay = some d → (s.calendar.day d).state ≠ .opened) →
      exec .dayClose s = .next ((s.dropNextFor .calendar).answer r.place .wrongState []))
    ∧ ∀ d, d ≤ 239 → s.calendar.currentDay = some d → (s.calendar.day d).state = .opened →
      ∃ c, exec .dayClose s = .next ({ s.dropNextFor .calendar with calendar := c }.answer r.place .ok [])
        ∧ c.currentDay = some d
        ∧ c.day d = (match (s.calendar.day d).source with
            | .computed => { s.calendar.day d with creditPercent := s.creditPercent d, source := .frozen, state := .closed }
            | .frozen | .set => { s.calendar.day d with state := .closed })
        ∧ (∀ k ≤ 239, k ≠ d → c.day k = s.calendar.day k)
        ∧ (∀ l : LaneNo, c.toLanes[l] = s.calendar.toLanes[l] ++ [.closed])
        ∧ c.toJournal = s.calendar.toJournal ∧ c.toProductTable = s.calendar.toProductTable
        ∧ c.secondOfDay = s.calendar.secondOfDay ∧ c.subSecondPhase = s.calendar.subSecondPhase
        ∧ c.closureThreshold = s.calendar.closureThreshold)
  ∧ (∀ (s : State) (l : LaneNo) (rest : List DayChange), s.calendar.toLanes[l] = .opened :: rest →
      exec (.laneDayOpen l) s = .next
        ({ s with calendar := { s.calendar with toLanes := s.calendar.toLanes.set l rest } }.setLane l
          (Lane.rederive (s.laneEnv l) { s.lane l with counters := LaneCounters.zero, dayOpen := true }).settle))
  ∧ (∀ (s : State) (l : LaneNo) (rest : List DayChange), s.calendar.toLanes[l] = .closed :: rest →
      exec (.laneDayClose l) s = .next
        ({ s with calendar := { s.calendar with toLanes := s.calendar.toLanes.set l rest } }.setLane l
          (Lane.rederive (s.laneEnv l) { s.lane l with dayOpen := false }).settle))
  ∧ ∀ s : State, s.calendar.toJournal ≠ 0 →
      ∃ t, exec .journalDayOpen s = .next t
        ∧ t.calendar = { s.calendar with toJournal := s.calendar.toJournal - 1 }
        ∧ (∀ (i : LiftNo) (hour : Fin 24), t.journal.bins[i][hour] = 0)
        ∧ (∀ i : LiftNo, t.journal.liftOverflow[i] = 0) ∧ t.journal.stationOverflow = 0
        ∧ t.journal = { s.journal with bins := t.journal.bins, liftOverflow := t.journal.liftOverflow, stationOverflow := 0 }

/-- TIME writes the second of day and restarts the sub-second phase; once the crystal has completed a second, and not before, a count advance moves the clock on, from 86,399
to 0, and on a multiple of 60 gathers the closed lift-minutes of the OPEN day; CALENDAR_PUT writes a record's class, its minutes and its credit, clamped. The sub-second phase
as a count of 32,768 cycles to a second (log entry 4), and that RANGE is checked before BAD_FIELD (log entry 42), are the model's. -/
def Obligations.ClockAndCalendarWritten : Prop :=
  (∀ body : List Byte, calendarForm body =
    { day := field body 0 1, classCode := field body 1 1, operatingMinutes := field body 2 2,
      credit := { presence := field body 4 1, value := field body 5 1 } })
  ∧ [0, 1, 2].map dayClassOf = [some .peak, some .regular, some .low] ∧ (∀ n, 2 < n → dayClassOf n = none)
  ∧ (∀ (s : State) (r : Routed), s.Routes .calendar .time r →
    (86399 < field r.body 0 4 → exec .time s = .next ((s.dropNextFor .calendar).answer r.place .range []))
    ∧ (field r.body 0 4 ≤ 86399 → exec .time s = .next
        ({ s.dropNextFor .calendar with
            calendar := { s.calendar with secondOfDay := field r.body 0 4, subSecondPhase := 0 } }.answer r.place .ok [])))
  ∧ (∀ s : State, s.calendar.subSecondPhase < 32768 → exec .countAdvance s = .next s)
  ∧ (∀ (s : State) (second : Nat) (c : Calendar), 32768 ≤ s.calendar.subSecondPhase →
    second = (if s.calendar.secondOfDay < 86399 then s.calendar.secondOfDay + 1 else 0) →
    c = { s.calendar with secondOfDay := second, subSecondPhase := s.calendar.subSecondPhase - 32768 } →
    ((second % 60 ≠ 0 ∨ ∀ d, s.calendar.currentDay = some d → (s.calendar.day d).state ≠ .opened) →
      exec .countAdvance s = .next { s with calendar := c })
    ∧ ∀ d, second % 60 = 0 → s.calendar.currentDay = some d → (s.calendar.day d).state = .opened →
      exec .countAdvance s = .next
        { s with calendar :=
          { c with
            days := s.calendar.days.setIfInBounds d
              { s.calendar.day d with closedLiftMinutes := min 5760 ((s.calendar.day d).closedLiftMinutes
                  + liftNumbers.countP fun i => (s.lift i).enabled && decide ((s.lift i).lineState.debounced = .closedWeather)) } } })
  ∧ ∀ (s : State) (r : Routed) (f : CalendarForm), s.Routes .calendar .calendarPut r → f = calendarForm r.body →
    (239 < f.day → exec .calendarPut s = .next ((s.dropNextFor .calendar).answer r.place .range []))
    ∧ (f.day ≤ 239 → (2 < f.classCode ∨ 1 < f.credit.presence) →
      exec .calendarPut s = .next ((s.dropNextFor .calendar).answer r.place .badField []))
    ∧ ∀ cls, f.day ≤ 239 → dayClassOf f.classCode = some cls → f.credit.presence ≤ 1 →
      ∃ c code, exec .calendarPut s = .next ({ s.dropNextFor .calendar with calendar := c }.answer r.place code [])
        ∧ (code = .okClamped ↔ 1440 < f.operatingMinutes ∨ (f.credit.presence = 1 ∧ 100 < f.credit.value))
        ∧ (code = .ok ↔ f.operatingMinutes ≤ 1440 ∧ (f.credit.presence = 0 ∨ f.credit.value ≤ 100))
        ∧ (f.credit.presence = 0 → c.day f.day =
            { s.calendar.day f.day with dayClass := cls, operatingMinutes := min 1440 f.operatingMinutes })
        ∧ (f.credit.presence = 1 → c.day f.day =
            { s.calendar.day f.day with
              dayClass := cls, operatingMinutes := min 1440 f.operatingMinutes,
              creditPercent := min 100 f.credit.value, source := .set })
        ∧ (∀ d ≤ 239, d ≠ f.day → c.day d = s.calendar.day d)
        ∧ c = { s.calendar with days := c.days }

/-! ### Lanes -/

/-- LANE_RELEASE and LANE_LOCK set the configured mode, LANE_FAULT_CLEAR clears the latches whose cause is gone, LANE_CONFIG maps the lane to its lifts; a lane that so
changes re-derives its state in the same event. That each lane takes a request of all lanes by a command of its own is the model's choice (log entry 34). -/
def Obligations.LaneRequestsTaken : Prop :=
  (∀ body : List Byte, laneForm body =
    { lane := field body 0 1, primary := field body 1 1,
      secondary := { presence := field body 2 1, value := field body 3 1 } })
  ∧ (∀ (s : State) (l : LaneNo) (r : Routed), s.Routes (.lane l) .laneRelease r →
    ((s.lane l).configuredMode = .released → exec (.laneRelease l) s = .next
      (((s.dropNextFor (.lane l)).setLane l (s.lane l).settle).jointAnswer r.place false false id))
    ∧ ((s.lane l).configuredMode = .locked → exec (.laneRelease l) s = .next
      (((s.dropNextFor (.lane l)).setLane l
        (Lane.rederive (s.laneEnv l) { s.lane l with configuredMode := .released }).settle).jointAnswer r.place true false id)))
  ∧ (∀ (s : State) (l : LaneNo) (r : Routed), s.Routes (.lane l) .laneLock r →
    ((s.lane l).configuredMode = .locked → exec (.laneLock l) s = .next
      (((s.dropNextFor (.lane l)).setLane l (s.lane l).settle).jointAnswer r.place false false id))
    ∧ ((s.lane l).configuredMode = .released → exec (.laneLock l) s = .next
      (((s.dropNextFor (.lane l)).setLane l
        (Lane.rederive (s.laneEnv l) { s.lane l with configuredMode := .locked }).settle).jointAnswer r.place true false id)))
  ∧ (∀ (s : State) (l : LaneNo) (r : Routed), s.Routes (.lane l) .laneFaultClear r →
    ((s.lane l).actuationFail = true ∨ ((s.lane l).stuckOpen = true ∧ (s.lane l).latchReleased = false) →
      ∃ kept, (kept = true ↔ (s.lane l).stuckOpen = true ∧ (s.lane l).latchReleased = true)
        ∧ exec (.laneFaultClear l) s = .next
          (((s.dropNextFor (.lane l)).setLane l
            (Lane.rederive (s.laneEnv l) { s.lane l with actuationFail := false, stuckOpen := kept }).settle).jointAnswer
            r.place true kept id))
    ∧ ((s.lane l).actuationFail = false → ((s.lane l).stuckOpen = false ∨ (s.lane l).latchReleased = true) →
      exec (.laneFaultClear l) s = .next
        (((s.dropNextFor (.lane l)).setLane l (s.lane l).settle).jointAnswer r.place false (s.lane l).stuckOpen id)))
  ∧ ∀ (s : State) (l : LaneNo) (r : Routed) (f : LaneForm), s.Routes (.lane l) .laneConfig r → f = laneForm r.body →
    ((3 < f.primary ∨ 1 < f.secondary.presence
        ∨ (f.secondary.presence = 1 ∧ (3 < f.secondary.value ∨ f.secondary.value = f.primary))) →
      exec (.laneConfig l) s = .next ((s.dropNextFor (.lane l)).answer r.place .badField []))
    ∧ ∀ (first : LiftNo) (second : Option LiftNo), f.primary = first.val → f.secondary.presence ≤ 1 →
      (f.secondary.presence = 0 ↔ second = none) → (∀ i, second = some i → f.secondary.value = i.val) →
      second ≠ some first →
      ((s.lane l).primaryLift = first → (s.lane l).secondaryLift = second →
        exec (.laneConfig l) s = .next ((s.dropNextFor (.lane l)).answer r.place .okNoChange []))
      ∧ (((s.lane l).primaryLift ≠ first ∨ (s.lane l).secondaryLift ≠ second) →
        exec (.laneConfig l) s = .next
          (((s.dropNextFor (.lane l)).setLane l
            (Lane.rederiveLift (s.laneEnv l) { s.lane l with primaryLift := first, secondaryLift := second } .remapped).settle).answer
            r.place .ok []))

/-- The PRESENT line is taken through a debounce of 500 ms into attaches and detaches; LATCH_SENSE is read as it stands; a drive window that runs out latches
ACTUATION_FAIL and a release watch STUCK_OPEN, and LANE_FAULT is raised. At the end of every lane event UNLOCK is driven for an UNLOCKED admission or in OVERRIDE_FREE and
else released, and the two windows follow it. That a change of PRESENT taken after the 500 ms have run and before the expiry is taken stops or restarts the debounce, and
that a LATCH_SENSE change taken after the 250 ms of a window have run and before its expiry is taken ends that window, is the model's choice (log entry 47), and so are
the levels as operands (log entry 31). -/
def Obligations.LaneLinesAndWindows : Prop :=
  (∀ x : Lane, ∃ unlock driveWindow releaseWatch,
    x.settle = { x with unlock := unlock, driveWindow := driveWindow, releaseWatch := releaseWatch }
    ∧ (unlock = true ↔ (∃ a, x.admission = some a ∧ a.phase = some .unlocked) ∨ x.effective = .overrideFree)
    ∧ (unlock = false ∨ x.latchReleased = true → driveWindow = none)
    ∧ (unlock = true → x.latchReleased = false → x.unlock = false → driveWindow = some 250)
    ∧ (unlock = true → x.latchReleased = false → x.unlock = true → driveWindow = x.driveWindow)
    ∧ (unlock = true ∨ x.presence.debounced = false ∨ x.stuckOpen = true ∨ x.latchReleased = false → releaseWatch = none)
    ∧ (unlock = false → x.presence.debounced = true → x.stuckOpen = false → x.latchReleased = true →
        (x.releaseWatch = none → releaseWatch = some 250) ∧ (x.releaseWatch ≠ none → releaseWatch = x.releaseWatch)))
  ∧ (∀ (s : State) (l : LaneNo) (present : Bool), present ≠ (s.lane l).presence.line →
    exec (.presentLineChange l present) s = .next (s.setLane l
      { s.lane l with presence := { line := present, debounced := (s.lane l).presence.debounced,
                                    remaining := if present = (s.lane l).presence.debounced then none else some 500 } }))
  ∧ (∀ (s : State) (l : LaneNo), (s.lane l).presence.remaining = some 0 → (s.lane l).presence.line = true →
    exec (.presenceDebounceExpiry l) s = .next (s.setLane l
      (Lane.rederive (s.laneEnv l)
        { s.lane l with presence := { line := true, debounced := true, remaining := none } }).settle))
  ∧ (∀ (s : State) (l : LaneNo), (s.lane l).presence.remaining = some 0 → (s.lane l).presence.line = false →
    ∃ x, x = Lane.rederive (s.laneEnv l)
          { s.lane l with
            presence := { line := false, debounced := false, remaining := none }
            actuationFail := false, stuckOpen := false, keyPosition := .normal, driveWindow := none, releaseWatch := none
            waitingTap := none }
      ∧ exec (.presenceDebounceExpiry l) s = .next (s.setLane l
        (Lane.settle { x with raises := x.raises ++ [{ condition := .laneDetached, detail := .lane l }] })))
  ∧ (∀ (s : State) (l : LaneNo) (released : Bool), released ≠ (s.lane l).latchReleased →
    exec (.latchSenseChange l released) s = .next (s.setLane l
      { s.lane l with
        latchReleased := released
        unlock := (s.lane l).wantsUnlock
        driveWindow := if (s.lane l).wantsUnlock = true ∧ released = false then
            (if (s.lane l).unlock = true then (s.lane l).driveWindow else some 250) else none
        releaseWatch := if (s.lane l).wantsUnlock = false ∧ (s.lane l).presence.debounced = true
            ∧ (s.lane l).stuckOpen = false ∧ released = true then some ((s.lane l).releaseWatch.getD 250) else none }))
  ∧ (∀ (s : State) (l : LaneNo), (s.lane l).driveWindow = some 0 → (s.lane l).unlock = true →
      (s.lane l).latchReleased = false →
    ∃ x, x = Lane.rederive (s.laneEnv l) { s.lane l with driveWindow := none, actuationFail := true }
      ∧ exec (.driveWindowExpiry l) s = .next (s.setLane l
        (Lane.settle { x with raises := x.raises ++ [{ condition := .laneFault, detail := .lane l }] })))
  ∧ ∀ (s : State) (l : LaneNo), (s.lane l).releaseWatch = some 0 → (s.lane l).watched = true →
    ∃ x, x = Lane.rederive (s.laneEnv l) { s.lane l with releaseWatch := none, stuckOpen := true }
      ∧ exec (.releaseWatchExpiry l) s = .next (s.setLane l
        (Lane.settle { x with raises := x.raises ++ [{ condition := .laneFault, detail := .lane l }] }))

/-- A lane frame is ignored on a DETACHED lane, dropped and counted when it is bad or met the lane's own sending, and else is the TAP or the KEY its bytes spell. A frame
is bad when its bytes do not add up to 0, when its kind is neither TAP nor KEY, when its length byte or its bytes are not those of its kind, or when its key position
names none. A SHOW leaves its slot to be sent, as a frame of kind 81, while the line is quiet. That every frame taken while a SHOW is being sent counts as damaged is the
model's reading (log entry 30); the bytes of a frame as the command's operand are its choice (log entry 31). -/
def Obligations.LaneFramesTaken : Prop :=
  (∀ uid, parseLaneFrame (tapFrame uid) = .tap uid) ∧ (∀ position, parseLaneFrame (keyFrame position) = .key position)
  ∧ byteSum [] = 0 ∧ (∀ b bytes, byteSum (b :: bytes) = b + byteSum bytes)
  ∧ (∀ uid : Uid, ∃ check, tapFrame uid = [1, 8] ++ be uid.toNat 8 ++ [check] ∧ byteSum (tapFrame uid) = 0)
  ∧ (∀ position : KeyPosition, ∃ check, keyFrame position = [2, 1, position.code, check] ∧ byteSum (keyFrame position) = 0)
  ∧ (∀ frame, byteSum frame ≠ 0 → parseLaneFrame frame = .bad)
  ∧ (∀ frame : List Byte, frame.length < 2 → parseLaneFrame frame = .bad)
  ∧ (∀ kind length rest, kind ≠ 1 → kind ≠ 2 → parseLaneFrame (kind :: length :: rest) = .bad)
  ∧ (∀ length rest, (length ≠ 8 ∨ rest.length ≠ 9) → parseLaneFrame (1 :: length :: rest) = .bad)
  ∧ (∀ length rest, (length ≠ 1 ∨ rest.length ≠ 2) → parseLaneFrame (2 :: length :: rest) = .bad)
  ∧ (∀ (position check : Byte), 2 < position.toNat → parseLaneFrame [2, 1, position, check] = .bad)
  ∧ (∀ frame, (∀ uid, frame ≠ tapFrame uid) → (∀ position, frame ≠ keyFrame position) → parseLaneFrame frame = .bad)
  ∧ (∀ (s : State) (l : LaneNo) (frame : List Byte), (s.lane l).presence.debounced = false →
    exec (.tap l frame) s = .next s ∧ exec (.key l frame) s = .next s ∧ exec (.laneFrameDrop l frame) s = .next s)
  ∧ (∀ (s : State) (l : LaneNo) (frame : List Byte), (s.lane l).presence.debounced = true →
      ((s.lane l).sending ≠ none ∨ parseLaneFrame frame = .bad) →
    ∃ t, t = s.setLane l { s.lane l with linkErrors := bump 65535 (s.lane l).linkErrors }
      ∧ exec (.tap l frame) s = .next t ∧ exec (.key l frame) s = .next t ∧ exec (.laneFrameDrop l frame) s = .next t)
  ∧ (∀ (s : State) (l : LaneNo) (frame : List Byte) (uid : Uid), (s.lane l).presence.debounced = true →
      (s.lane l).sending = none → parseLaneFrame frame = .tap uid →
    ((s.lane l).validationInFlight = true →
      exec (.tap l frame) s = .next (s.setLane l (Lane.settle { s.lane l with waitingTap := some uid })))
    ∧ ((s.lane l).validationInFlight = false →
      exec (.tap l frame) s = .next (s.setLane l ((s.lane l).takeTap uid).settle)))
  ∧ (∀ (s : State) (l : LaneNo) (frame : List Byte) (position : KeyPosition), (s.lane l).presence.debounced = true →
      (s.lane l).sending = none → parseLaneFrame frame = .key position →
    ((s.lane l).keyPosition = position → exec (.key l frame) s = .next (s.setLane l (s.lane l).settle))
    ∧ ((s.lane l).keyPosition ≠ position → exec (.key l frame) s = .next (s.setLane l
        (Lane.rederive (s.laneEnv l) { s.lane l with keyPosition := position }).settle)))
  ∧ (∀ (s : State) (l : LaneNo) (x : Show), (s.lane l).showSlot = some x → (s.lane l).sending = none →
    exec (.showSend l true) s = .next s
      ∧ ∃ frame check, frame = [0x81, 3, x.signal.code, x.reason.code, BitVec.ofNat 8 x.heads, check] ∧ byteSum frame = 0
        ∧ exec (.showSend l false) s = .next (s.setLane l { s.lane l with showSlot := none, sending := some frame }))
  ∧ (∀ (s : State) (l : LaneNo) (frame : List Byte), (s.lane l).sending = some frame →
    exec (.showSent l) s = .next (s.setLane l { s.lane l with sending := none }))
  ∧ [KeyPosition.normal, .free, .shut].map (·.code.toNat) = [0, 1, 2]
  ∧ [Signal.green, .amber, .red, .seeOffice, .dark].map (·.code.toNat) = [0, 1, 2, 3, 4]
  ∧ [EffectiveState.detached, .faulted, .overrideFree, .overrideShut, .locked, .dayClosed, .noLift, .inService].map
      (fun e => (ShowReason.state e).code.toNat) = [0, 1, 2, 3, 4, 5, 6, 7]
  ∧ [DenyReason.laneLocked, .laneShut, .laneFault, .dayClosed, .noLift, .laneBusy, .unknownPass, .blocked, .retired,
      .noProduct, .notValidToday, .wrongLift, .passInUse, .tooSoon, .noDaysLeft].map
      (fun reason => (ShowReason.denied reason).code.toNat) = [16, 17, 18, 19, 20, 21, 22, 23, 24, 25, 26, 27, 28, 29, 30]
  ∧ [ShowReason.complete, .balked, .partlyPassed, .holdExpired, .liftChanged, .liftClosed, .passStatus].map (·.code.toNat)
      = [32, 33, 34, 35, 36, 37, 38]

/-- The lane takes a tap by its effective state: IN_SERVICE it hands a validation, ignores the UID of its own admission and denies another's LANE_BUSY; every other state
denies for its own reason, DETACHED ignores. A denial raises two counters and is shown. A tap from the waiting slot is taken so too. That one which would be validated
while another validation is in flight waits in the slot again is the model's reading (log entry 17). -/
def Obligations.TapsTaken : Prop :=
  (∀ (x : Lane) (uid : Uid),
    (x.effective = .inService → x.admission = none →
      x.takeTap uid =
        { x with validationInFlight := true
                 rowOps := if x.resetsPending = 0 then x.rowOps ++ [.validate uid] else x.rowOps })
    ∧ (∀ a, x.effective = .inService → x.admission = some a → a.uid = uid → x.takeTap uid = x)
    ∧ (∀ a, x.effective = .inService → x.admission = some a → a.uid ≠ uid → x.takeTap uid = x.deny .laneBusy)
    ∧ (x.effective = .detached → x.takeTap uid = x)
    ∧ (x.effective = .faulted → x.takeTap uid = x.deny .laneFault)
    ∧ (x.effective = .overrideFree ∨ x.effective = .locked → x.takeTap uid = x.deny .laneLocked)
    ∧ (x.effective = .overrideShut → x.takeTap uid = x.deny .laneShut)
    ∧ (x.effective = .dayClosed → x.takeTap uid = x.deny .dayClosed)
    ∧ (x.effective = .noLift → x.takeTap uid = x.deny .noLift))
  ∧ (∀ (x : Lane) (reason : DenyReason), ∃ signal heads,
      x.deny reason =
        { x with
          counters := { x.counters with
            taps := bump 65535 x.counters.taps
            denials := x.counters.denials.set reason.index (bump 65535 x.counters.denials[reason.index]) }
          showSlot := some { signal := signal, reason := .denied reason, heads := heads }
          lastShown := some { signal := signal, reason := .denied reason, heads := heads } }
      ∧ (reason = .blocked → signal = .seeOffice)
      ∧ (reason = .laneLocked → x.effective = .overrideFree → signal = .green)
      ∧ (reason ≠ .blocked → (reason ≠ .laneLocked ∨ x.effective ≠ .overrideFree) → signal = .red)
      ∧ (reason ≠ .laneBusy → heads = 0)
      ∧ ∀ a, reason = .laneBusy → x.admission = some a → heads = a.headsTotal - a.headsPassed)
  ∧ ∀ (s : State) (l : LaneNo) (uid : Uid) (rest : List Uid), (s.lane l).emptiedTaps = uid :: rest →
    (((s.lane l).validationInFlight = false ∨ (s.lane l).effective ≠ .inService ∨ (s.lane l).admission ≠ none) →
      exec (.waitingTapTake l) s = .next (s.setLane l (Lane.takeTap { s.lane l with emptiedTaps := rest } uid).settle))
    ∧ ((s.lane l).validationInFlight = true → (s.lane l).effective = .inService → (s.lane l).admission = none →
      exec (.waitingTapTake l) s = .next (s.setLane l
        (Lane.settle { s.lane l with emptiedTaps := rest, waitingTap := some ((s.lane l).waitingTap.getD uid) })))

/-- The validation row operation denies for the first of the ordered checks that fails, or grants: the row takes the pending lane and the lane the admission, its counters
and its first place request, in one operation. That a validation waits for the cancellations handed before is the model's reading (log entry 16). -/
def Obligations.ValidationDecides : Prop :=
  (∀ (s : State) (l : LaneNo) (uid : Uid) (x : Lane), s.table.cancellations[l] = [] → s.RowOpNext l (.validate uid) →
    x = { s.lane l with rowOps := (s.lane l).rowOps.tail } →
    ((s.lane l).effective = .detached →
      exec (.validation l) s = .next ((s.rowOpTaken l).setLane l x.decisionTaken.settle))
    ∧ (∀ reason, (s.lane l).effective.denial = some reason →
      exec (.validation l) s = .next ((s.rowOpTaken l).setLane l (x.deny reason).decisionTaken.settle))
    ∧ (∀ lift reason, (s.lane l).effective = .inService → (s.lane l).servedLift = some lift →
        s.decision uid lift = .error reason →
      exec (.validation l) s = .next ((s.rowOpTaken l).setLane l (x.deny reason).decisionTaken.settle))
    ∧ ∀ (lift : LiftNo) (slot : Nat) (row : PassRow), (s.lane l).effective = .inService → (s.lane l).servedLift = some lift →
        s.decision uid lift = .ok (slot, row) →
      exec (.validation l) s = .next
        (((s.rowOpTaken l).writeRow slot { row with pendingLane := some l }).setLane l (Lane.settle
          { x with
            counters := { x.counters with taps := bump 65535 x.counters.taps, grants := bump 65535 x.counters.grants }
            lastRequest := x.lastRequest + 1
            admission := some { slot := slot, uid := uid, lane := l, lift := lift, phase := none, headsTotal := row.headcount,
                                headsPassed := 0, request := x.lastRequest + 1, deadline := none, holdStart := none }
            toLifts := s.messagesWith l lift [.placeRequest (x.lastRequest + 1)]
            validationInFlight := false
            waitingTap := none
            emptiedTaps := x.emptiedTaps ++ x.waitingTap.toList })))
  ∧ (∀ (s : State) (uid : Uid) (lift : LiftNo), lookup s.table.slots uid = none → s.decision uid lift = .error .unknownPass)
  ∧ (∀ (s : State) (uid : Uid) (lift : LiftNo) (slot : Nat) (row : PassRow) (p : Product),
    lookup s.table.slots uid = some (slot, row) → p = s.product row.product →
    (row.status = .blocked → s.decision uid lift = .error .blocked)
    ∧ (row.status = .retired → s.decision uid lift = .error .retired)
    ∧ (row.status = .active → p.isDefined = false → s.decision uid lift = .error .noProduct)
    ∧ (row.status = .active → p.isDefined = true →
      (s.calendar.currentDay = none → s.decision uid lift = .error .notValidToday)
      ∧ ∀ d, s.calendar.currentDay = some d →
        ((d < p.validFrom ∨ p.validTo < d ∨ ∃ e, row.expiryDay = some e ∧ e < d) → s.decision uid lift = .error .notValidToday)
        ∧ (p.validFrom ≤ d → d ≤ p.validTo → (∀ e, row.expiryDay = some e → d ≤ e) →
          (p.liftMask.getLsbD (s.lift lift).resortLift = false → s.decision uid lift = .error .wrongLift)
          ∧ (p.liftMask.getLsbD (s.lift lift).resortLift = true →
            (row.pendingLane ≠ none → s.decision uid lift = .error .passInUse)
            ∧ (row.pendingLane = none →
              (∀ q, row.lastPassage = some q → q.day = d → q.lift = lift →
                s.calendar.secondOfDay < q.second + p.rerideInterval → 0 < p.rerideInterval →
                s.decision uid lift = .error .tooSoon)
              ∧ ((∀ q, row.lastPassage = some q → q.day ≠ d ∨ q.lift ≠ lift ∨ p.rerideInterval = 0
                    ∨ q.second + p.rerideInterval ≤ s.calendar.secondOfDay) →
                (p.kind = .multiDay → d ∉ row.consumed → p.dayCount ≤ row.consumed.length →
                  s.decision uid lift = .error .noDaysLeft)
                ∧ ((p.kind = .season ∨ d ∈ row.consumed ∨ row.consumed.length < p.dayCount) →
                  s.decision uid lift = .ok (slot, row))))))))

/-- A rotation, the ROTATION line active after 20 ms of inactivity, is the next head's passage while the admission is UNLOCKED, else a FREE passage in OVERRIDE_FREE and
an intrusion otherwise; a DETACHED lane ignores it. A passage asks for the next head's place or ends the admission COMPLETE. The line's level as operand, and what is
discarded between the resets of two blocks, are the model's (log entries 31 and 33). -/
def Obligations.RotationsTaken : Prop :=
  (∀ (s : State) (l : LaneNo) (active : Bool), active ≠ (s.lane l).rotationLine.active →
      (active = false ∨ (s.lane l).rotationLine.inactiveMs < 20) →
    exec (.rotation l active) s = .next (s.setLane l
      { s.lane l with rotationLine := { active := active, inactiveMs := 0 } }))
  ∧ ∀ (s : State) (l : LaneNo) (x : Lane), (s.lane l).rotationLine.active = false → 20 ≤ (s.lane l).rotationLine.inactiveMs →
    x = { s.lane l with rotationLine := { active := true, inactiveMs := 0 } } →
    (x.effective = .detached → exec (.rotation l true) s = .next (s.setLane l x.settle))
    ∧ (∀ a : Admission, x.effective ≠ .detached → x.admission = some a → a.phase = some .unlocked →
      (a.headsPassed + 1 < a.headsTotal →
        exec (.rotation l true) s = .next (s.setLane l (Lane.settle
          { x with
            rowOps := s.rowOpsWith l [.passage a.slot a.uid (a.headsPassed + 1) a.lift
              { day := s.calendar.currentDay, second := s.calendar.secondOfDay }]
            toLifts := s.messagesWith l a.lift [.passage a.request, .placeRequest (x.lastRequest + 1)]
            lastRequest := x.lastRequest + 1
            admission := some { a with headsPassed := a.headsPassed + 1, request := x.lastRequest + 1, phase := none,
                                       deadline := none, holdStart := none } })))
      ∧ (a.headsTotal ≤ a.headsPassed + 1 →
        exec (.rotation l true) s = .next (s.setLane l (Lane.settle
          { x with
            rowOps := s.rowOpsWith l
              [.passage a.slot a.uid (a.headsPassed + 1) a.lift
                { day := s.calendar.currentDay, second := s.calendar.secondOfDay }, .closing a.slot a.uid]
            toLifts := s.messagesWith l a.lift [.passage a.request]
            admission := none
            showSlot := some { signal := .dark, reason := .complete, heads := 0 }
            lastShown := some { signal := .dark, reason := .complete, heads := 0 } }))))
    ∧ (x.effective = .overrideFree → (∀ a, x.admission = some a → a.phase ≠ some .unlocked) →
      exec (.rotation l true) s = .next (s.setLane l (Lane.settle
        { x with
          counters := { x.counters with freePassages := bump 65535 x.counters.freePassages }
          toLifts := x.servedTold .freePassage
          records := x.records ++
            [{ kind := .free, second := s.calendar.secondOfDay, day := s.calendar.currentDay, lane := some l,
               lift := x.servedLift, uid := none, headIndex := none, newDay := none, amountPerHead := none, headcount := none,
               unusedDays := none }] })))
    ∧ (x.effective ≠ .detached → x.effective ≠ .overrideFree → (∀ a, x.admission = some a → a.phase ≠ some .unlocked) →
      exec (.rotation l true) s = .next (s.setLane l (Lane.settle
        { x with
          counters := { x.counters with intrusions := bump 65535 x.counters.intrusions }
          toLifts := x.servedTold .intrusion
          records := x.records ++
            [{ kind := .intrusion, second := s.calendar.secondOfDay, day := s.calendar.currentDay, lane := some l,
               lift := x.servedLift, uid := none, headIndex := none, newDay := none, amountPerHead := none, headcount := none,
               unusedDays := none }] })))

/-- The passage commit writes the stamp day, if it is new and there is room, and the last passage, and hands the PASSAGE record; the row operation of a later head hands
its record only; the closing row operation clears the pending lane that still names this lane. What a closing row operation does without its row is the model's choice
(log entry 26), and so is that a passage whose stamp carries no day, in a state R111 rules out and no run reaches, keeps its row and hands a record without a day and with
the day-consumed flag clear (log entry 50). -/
def Obligations.PassageRowsWritten : Prop :=
  (∀ (s : State) (l : LaneNo) (slot : Nat) (uid : Uid) (lift : LiftNo) (stamp : Stamp) (row : PassRow) (p : Product),
    s.RowOpNext l (.passage slot uid 1 lift stamp) → slotAt s.table.slots slot = some row → row.uid = uid →
    p = s.product row.product →
    ∃ written newDay, exec (.passageCommit l) s = .next
        (((s.rowOpTaken l).writeRow slot written).handPassage
          { kind := .passage, second := stamp.second, day := stamp.day, lane := some l, lift := some lift, uid := some uid,
            headIndex := some 1, newDay := some newDay, amountPerHead := none, headcount := none, unusedDays := none })
      ∧ (stamp.day = none → written = row ∧ newDay = false)
      ∧ ∀ d, stamp.day = some d → ∃ last, last = some { lift := lift, day := d, second := stamp.second }
        ∧ (p.kind = .multiDay → (d ∈ row.consumed ∨ p.dayCount ≤ row.consumed.length) →
            written = { row with lastPassage := last } ∧ newDay = false)
        ∧ (p.kind = .multiDay → d ∉ row.consumed → row.consumed.length < p.dayCount →
            written = { row with consumed := insertDay d row.consumed, lastPassage := last } ∧ newDay = true)
        ∧ (p.kind = .season → (∃ c, row.lastCountedDay = some c ∧ d ≤ c) →
            written = { row with lastPassage := last } ∧ newDay = false)
        ∧ (p.kind = .season → (∀ c, row.lastCountedDay = some c → c < d) →
            written = { row with seasonDays := min 240 (row.seasonDays + 1), lastCountedDay := some d, lastPassage := last }
              ∧ newDay = true))
  ∧ (∀ (s : State) (l : LaneNo) (slot : Nat) (uid : Uid) (head : Nat) (lift : LiftNo) (stamp : Stamp) (row : PassRow),
    head ≠ 1 → s.RowOpNext l (.passage slot uid head lift stamp) → slotAt s.table.slots slot = some row → row.uid = uid →
    exec (.headRecord l) s = .next
      ((s.rowOpTaken l).handPassage
        { kind := .passage, second := stamp.second, day := stamp.day, lane := some l, lift := some lift, uid := some uid,
          headIndex := some head, newDay := some false, amountPerHead := none, headcount := none, unusedDays := none }))
  ∧ ∀ (s : State) (l : LaneNo) (slot : Nat) (uid : Uid), s.RowOpNext l (.closing slot uid) →
    (∀ row, slotAt s.table.slots slot = some row → row.uid = uid → row.pendingLane = some l →
      exec (.closingRowOperation l) s = .next ((s.rowOpTaken l).writeRow slot { row with pendingLane := none }))
    ∧ ((∀ row, slotAt s.table.slots slot = some row → row.uid = uid → row.pendingLane ≠ some l) →
      exec (.closingRowOperation l) s = .next (s.rowOpTaken l))

/-- A current place unlocks the lane for its passage window and a current hold starts its hold timeout; a stale place goes back as a release and a stale hold as a leave;
a current refusal cancels the admission. That an answer must come from the admission's lift, and the queues in which answers stand, are the model's (log entries 10 and
32). That a current hold which finds a phase goes back as a leave, a current place which finds the admission UNLOCKED as a release, and that a current refusal which finds
a phase ends the admission by it, is the model's choice (log entry 52), and so is that a lane takes an answer handed before its own station reset until the lift has taken
that reset too (log entry 51). -/
def Obligations.LiftAnswersTaken : Prop :=
  (∀ (s : State) (l : LaneNo) (i : LiftNo) (n : RequestNo) (rest : List LiftAnswer) (u : State),
    (s.lift i).answers[l] = .place n :: rest → u = s.setLift i { s.lift i with answers := (s.lift i).answers.set l rest } →
    (∀ a : Admission, (s.lane l).admission = some a → a.lift = i → a.request = n → a.phase ≠ some .unlocked →
      exec (.place l i) s = .next (u.setLane l (Lane.settle
        { s.lane l with
          admission := some { a with phase := some .unlocked, holdStart := none,
                                     deadline := some { setAt := s.timebase, duration := 1000 * (s.lane l).passageWindow } }
          showSlot := some { signal := .green, reason := .state .inService, heads := a.headsTotal - a.headsPassed }
          lastShown := some { signal := .green, reason := .state .inService, heads := a.headsTotal - a.headsPassed } })))
    ∧ ((∀ a, (s.lane l).admission = some a → a.lift = i → a.request = n → a.phase = some .unlocked) →
      exec (.place l i) s = .next (u.setLane l (Lane.settle { s.lane l with toLifts := s.messagesWith l i [.release n] }))))
  ∧ (∀ (s : State) (l : LaneNo) (i : LiftNo) (n : RequestNo) (rest : List LiftAnswer) (u : State),
    (s.lift i).answers[l] = .hold n :: rest → u = s.setLift i { s.lift i with answers := (s.lift i).answers.set l rest } →
    (∀ a : Admission, (s.lane l).admission = some a → a.lift = i → a.request = n → a.phase = none →
      exec (.hold l i) s = .next (u.setLane l (Lane.settle
        { s.lane l with
          admission := some { a with phase := some .hold, holdStart := some s.timebase,
                                     deadline := some { setAt := s.timebase, duration := 1000 * (s.lane l).holdTimeout } }
          showSlot := some { signal := .amber, reason := .state .inService, heads := a.headsTotal - a.headsPassed }
          lastShown := some { signal := .amber, reason := .state .inService, heads := a.headsTotal - a.headsPassed } })))
    ∧ ((∀ a, (s.lane l).admission = some a → a.lift = i → a.request = n → a.phase ≠ none) →
      exec (.hold l i) s = .next (u.setLane l (Lane.settle { s.lane l with toLifts := s.messagesWith l i [.leave n] }))))
  ∧ ∀ (s : State) (l : LaneNo) (i : LiftNo) (n : RequestNo) (rest : List LiftAnswer) (u : State),
    (s.lift i).answers[l] = .refusal n :: rest → u = s.setLift i { s.lift i with answers := (s.lift i).answers.set l rest } →
    (∀ a : Admission, (s.lane l).admission = some a → a.lift = i → a.request = n →
      exec (.refusal l i) s = .next (u.setLane l (Lane.settle
        { s.lane l with
          admission := none
          rowOps := s.rowOpsWith l [.closing a.slot a.uid]
          toLifts := (match a.phase with
            | some .unlocked => s.messagesWith l a.lift [.release a.request]
            | some .hold => s.messagesWith l a.lift [.leave a.request]
            | none => (s.lane l).toLifts)
          showSlot := some { signal := .red, reason := .liftClosed, heads := a.headsTotal - a.headsPassed }
          lastShown := some { signal := .red, reason := .liftClosed, heads := a.headsTotal - a.headsPassed } })))
    ∧ ((∀ a, (s.lane l).admission = some a → a.lift = i → a.request ≠ n) →
      exec (.refusal l i) s = .next (u.setLane l (s.lane l).settle))

/-- An expired passage window ends the admission BALKED or PARTIAL and releases its place, an expired hold timeout ends it HOLD_EXPIRED and leaves the queue, and a
cancellation for its pass ends it by its phase; each hands the closing row operation and is shown. That an expiry may be taken late is the model's reading (log entry 6),
and so is what is discarded between the resets of a lane and a lift (log entry 33). -/
def Obligations.AdmissionsEnd : Prop :=
  (∀ (s : State) (l : LaneNo) (a : Admission) (d : Deadline), (s.lane l).admission = some a → a.phase = some .unlocked →
    a.deadline = some d → d.duration ≤ (s.timebase - d.setAt).toNat →
    (a.headsPassed = 0 →
      exec (.passageWindowExpiry l) s = .next (s.setLane l (Lane.settle
        { s.lane l with
          admission := none
          rowOps := s.rowOpsWith l [.closing a.slot a.uid]
          toLifts := s.messagesWith l a.lift [.release a.request]
          counters := { (s.lane l).counters with balks := bump 65535 (s.lane l).counters.balks }
          showSlot := some { signal := .red, reason := .balked, heads := a.headsTotal - a.headsPassed }
          lastShown := some { signal := .red, reason := .balked, heads := a.headsTotal - a.headsPassed } })))
    ∧ (a.headsPassed ≠ 0 →
      exec (.passageWindowExpiry l) s = .next (s.setLane l (Lane.settle
        { s.lane l with
          admission := none
          rowOps := s.rowOpsWith l [.closing a.slot a.uid]
          toLifts := s.messagesWith l a.lift [.release a.request]
          counters := { (s.lane l).counters with partials := bump 65535 (s.lane l).counters.partials }
          showSlot := some { signal := .red, reason := .partlyPassed, heads := a.headsTotal - a.headsPassed }
          lastShown := some { signal := .red, reason := .partlyPassed, heads := a.headsTotal - a.headsPassed } }))))
  ∧ (∀ (s : State) (l : LaneNo) (a : Admission) (d : Deadline), (s.lane l).admission = some a → a.phase = some .hold →
    a.deadline = some d → d.duration ≤ (s.timebase - d.setAt).toNat →
      exec (.holdTimeoutExpiry l) s = .next (s.setLane l (Lane.settle
        { s.lane l with
          admission := none
          rowOps := s.rowOpsWith l [.closing a.slot a.uid]
          toLifts := s.messagesWith l a.lift [.leave a.request]
          counters := { (s.lane l).counters with holdExpiries := bump 65535 (s.lane l).counters.holdExpiries }
          showSlot := some { signal := .red, reason := .holdExpired, heads := a.headsTotal - a.headsPassed }
          lastShown := some { signal := .red, reason := .holdExpired, heads := a.headsTotal - a.headsPassed } })))
  ∧ ∀ (s : State) (l : LaneNo) (uid : Uid) (rest : List Uid) (u : State), s.table.cancellations[l] = uid :: rest →
    u = { s with table := { s.table with cancellations := s.table.cancellations.set l rest } } →
    (∀ a : Admission, (s.lane l).admission = some a → a.uid = uid →
      exec (.passStatusCancellation l) s = .next (u.setLane l (Lane.settle
        { s.lane l with
          admission := none
          rowOps := s.rowOpsWith l [.closing a.slot a.uid]
          toLifts := (match a.phase with
            | some .unlocked => s.messagesWith l a.lift [.release a.request]
            | some .hold => s.messagesWith l a.lift [.leave a.request]
            | none => (s.lane l).toLifts)
          showSlot := some { signal := .seeOffice, reason := .passStatus, heads := 0 }
          lastShown := some { signal := .seeOffice, reason := .passStatus, heads := 0 } })))
    ∧ ((∀ a, (s.lane l).admission = some a → a.uid ≠ uid) →
      exec (.passStatusCancellation l) s = .next (u.setLane l (s.lane l).settle))

/-! ### Lifts -/

/-- What lanes hand a lift: a place request is refused out of operation, given a place while there is room and no one waits, or queued; a passage turns a reserved place
into occupancy, a release and a leave take back a place and a queue entry, and free passages and intrusions count. The room arbiter serves the queue from its head while
there is room. The queues in which messages and answers stand (log entry 10), and that a request joins beside an entry its lane may still have, without a bound (log
entry 44), are the model's choice. -/
def Obligations.LiftEventsTaken : Prop :=
  (∀ (s : State) (l : LaneNo) (i : LiftNo) (rest : List LaneMessage) (n : RequestNo) (u : State),
    u = s.setLane l { s.lane l with toLifts := (s.lane l).toLifts.set i rest } →
    ((s.lane l).toLifts[i] = .placeRequest n :: rest →
      ((s.lift i).inOperation = false → exec (.placeRequest l i) s = .next (u.setLift i
        { s.lift i with answers := (s.lift i).answers.set l ((s.lift i).answers[l] ++ [.refusal n]) }))
      ∧ ((s.lift i).inOperation = true →
          ((s.lift i).corralLimit = 0 ∨ ((s.lift i).holdQueue = []
            ∧ (s.lift i).occupancy + (s.lift i).reservations.length < (s.lift i).corralLimit)) →
        exec (.placeRequest l i) s = .next (u.setLift i
          { s.lift i with
            reservations := (s.lift i).reservations ++ [{ lane := l, request := n }]
            answers := (s.lift i).answers.set l ((s.lift i).answers[l] ++ [.place n]) }))
      ∧ ((s.lift i).inOperation = true → (s.lift i).corralLimit ≠ 0 →
          ((s.lift i).holdQueue ≠ [] ∨ (s.lift i).corralLimit ≤ (s.lift i).occupancy + (s.lift i).reservations.length) →
        exec (.placeRequest l i) s = .next (u.setLift i
          { s.lift i with
            holdQueue := (s.lift i).holdQueue ++ [{ lane := l, request := n, holdStart := s.timebase }]
            answers := (s.lift i).answers.set l ((s.lift i).answers[l] ++ [.hold n]) })))
    ∧ ((s.lane l).toLifts[i] = .passage n :: rest →
      exec (.liftPassage l i) s = .next (u.setLift i (Lift.arbiter
        { s.lift i with
          reservations := (s.lift i).reservations.eraseP fun e => e.lane == l && e.request == n
          occupancy := bump 999 (s.lift i).occupancy })))
    ∧ ((s.lane l).toLifts[i] = .release n :: rest →
      exec (.release l i) s = .next (u.setLift i (Lift.arbiter
        { s.lift i with reservations := (s.lift i).reservations.eraseP fun e => e.lane == l && e.request == n })))
    ∧ ((s.lane l).toLifts[i] = .leave n :: rest →
      exec (.leave l i) s = .next (u.setLift i (Lift.arbiter
        { s.lift i with holdQueue := (s.lift i).holdQueue.eraseP fun e => e.lane == l && e.request == n })))
    ∧ ((s.lane l).toLifts[i] = .freePassage :: rest →
      exec (.liftFreePassage l i) s = .next (u.setLift i { s.lift i with occupancy := bump 999 (s.lift i).occupancy }))
    ∧ ((s.lane l).toLifts[i] = .intrusion :: rest →
      exec (.liftIntrusion l i) s = .next (u.setLift i { s.lift i with occupancy := bump 999 (s.lift i).occupancy })))
  ∧ (∀ x : Lift, x.inOperation = false → x.arbiter = x)
  ∧ ∀ x : Lift, x.inOperation = true → ∃ (given kept : List HoldEntry) (answers : Vector (List LiftAnswer) 12), x.holdQueue = given ++ kept
      ∧ x.arbiter =
        { x with
          reservations := x.reservations ++ given.map fun e => { lane := e.lane, request := e.request }
          holdQueue := kept
          answers := answers }
      ∧ (∀ l : LaneNo, answers[l] =
          x.answers[l] ++ (given.filter fun e => e.lane = l).map fun e => LiftAnswer.place e.request)
      ∧ (∀ j < given.length, x.corralLimit = 0 ∨ x.occupancy + x.reservations.length + j < x.corralLimit)
      ∧ (kept ≠ [] → x.corralLimit ≠ 0 ∧ x.corralLimit ≤ x.occupancy + x.reservations.length + given.length)

/-- A carrier pulse taken while the lift is RUNNING lowers the occupancy by the seats per carrier, to no less than 0, and the room arbiter runs; one taken in another
state is ignored. The line counts a pulse when it becomes active after 20 ms of inactivity; its new level as the command's operand is the model's choice (log entry 31). -/
def Obligations.CarrierPulsesTaken : Prop :=
  (∀ (s : State) (i : LiftNo), (s.lift i).carrierLine.active = false → 20 ≤ (s.lift i).carrierLine.inactiveMs →
    ((s.lift i).state = .running →
      exec (.carrierPulse i true) s = .next (s.setLift i (Lift.arbiter
        { s.lift i with
          carrierLine := { active := true, inactiveMs := 0 }
          occupancy := (s.lift i).occupancy - (s.lift i).seatsPerCarrier })))
    ∧ ((s.lift i).state ≠ .running →
      exec (.carrierPulse i true) s = .next (s.setLift i
        { s.lift i with carrierLine := { active := true, inactiveMs := 0 } })))
  ∧ ∀ (s : State) (i : LiftNo) (active : Bool), active ≠ (s.lift i).carrierLine.active →
      (active = false ∨ (s.lift i).carrierLine.inactiveMs < 20) →
    exec (.carrierPulse i active) s = .next (s.setLift i
      { s.lift i with carrierLine := { active := active, inactiveMs := 0 } })

/-- A lift's lines are taken through a debounce of 1 s; its configuration is stored clamped; a change of operation empties the corral and the queue or lets the arbiter
run, and is handed to every lane, which derives its served lift again and cancels an admission for another lift. The queue in which changes of in-operation stand is the
model's choice (log entry 10). That a line change taken after the 1 s has run, and before LIFT_DEBOUNCE_EXPIRY is, stops or restarts the debounce, is the model's choice
too (log entry 47), and so are the lines' levels as operand (log entry 31). -/
def Obligations.LiftLinesAndConfig : Prop :=
  (∀ body : List Byte, liftForm body =
    { lift := field body 0 1, enabled := field body 1 1, resortLift := field body 2 1, seats := field body 3 1,
      limit := field body 4 2 })
  ∧ (∀ (s : State) (i : LiftNo) (lsa lsb : Bool) (e : LiftState),
    e = (match lsa, lsb with
      | false, false => .closedSchedule
      | true, false => .running
      | true, true => .stopped
      | false, true => .closedWeather) → e ≠ (s.lift i).lineState.line →
    exec (.liftLineChange i lsa lsb) s = .next (s.setLift i
      { s.lift i with lineState := { line := e, debounced := (s.lift i).lineState.debounced,
                                     remaining := if e = (s.lift i).lineState.debounced then none else some 1000 } }))
  ∧ (∀ (s : State) (i : LiftNo) (y : Lift), (s.lift i).lineState.remaining = some 0 →
    y = { s.lift i with lineState := { line := (s.lift i).lineState.line, debounced := (s.lift i).lineState.line,
                                       remaining := none } } →
    ((s.lift i).inOperation = true → y.inOperation = false →
      exec (.liftDebounceExpiry i) s = .next (s.setLift i
        { y with occupancy := 0, holdQueue := [], changes := y.changes.map (· ++ [false]) }))
    ∧ ((s.lift i).inOperation = false → y.inOperation = true →
      exec (.liftDebounceExpiry i) s = .next (s.setLift i (Lift.arbiter { y with changes := y.changes.map (· ++ [true]) })))
    ∧ ((s.lift i).inOperation = y.inOperation → exec (.liftDebounceExpiry i) s = .next (s.setLift i y)))
  ∧ (∀ (s : State) (i : LiftNo) (r : Routed) (f : LiftForm) (y : Lift), s.Routes (.lift i) .liftConfig r → f = liftForm r.body →
    (1 < f.enabled → exec (.liftConfig i) s = .next ((s.dropNextFor (.lift i)).answer r.place .badField []))
    ∧ (f.enabled ≤ 1 →
      y = { s.lift i with enabled := decide (f.enabled = 1), resortLift := min 63 f.resortLift,
                          seatsPerCarrier := clamp 1 12 f.seats, corralLimit := min 999 f.limit } →
      ∃ code z, exec (.liftConfig i) s = .next (((s.dropNextFor (.lift i)).setLift i z).answer r.place code [])
        ∧ (code = .okClamped ↔ 63 < f.resortLift ∨ f.seats = 0 ∨ 12 < f.seats ∨ 999 < f.limit)
        ∧ (code = .okNoChange → y = s.lift i) ∧ (y = s.lift i → code = .okNoChange ∨ code = .okClamped)
        ∧ (code = .ok ∨ code = .okNoChange ∨ code = .okClamped)
        ∧ ((s.lift i).inOperation = true → y.inOperation = false →
            z = { y with occupancy := 0, holdQueue := [], changes := y.changes.map (· ++ [false]) })
        ∧ ((s.lift i).inOperation = false → y.inOperation = true →
            z = Lift.arbiter { y with changes := y.changes.map (· ++ [true]) })
        ∧ ((s.lift i).inOperation = true → y.inOperation = true →
            ((y.corralLimit ≠ (s.lift i).corralLimit ∧ (y.corralLimit = 0
                ∨ ((s.lift i).corralLimit ≠ 0 ∧ (s.lift i).corralLimit < y.corralLimit))) → z = y.arbiter)
            ∧ (¬ (y.corralLimit ≠ (s.lift i).corralLimit ∧ (y.corralLimit = 0
                ∨ ((s.lift i).corralLimit ≠ 0 ∧ (s.lift i).corralLimit < y.corralLimit))) → z = y))
        ∧ ((s.lift i).inOperation = false → y.inOperation = false → z = y)))
  ∧ (∀ (s : State) (l : LaneNo) (i : LiftNo) (inOperation : Bool) (rest : List Bool) (u : State) (x : Lane),
    (s.lift i).changes[l] = inOperation :: rest → u = s.setLift i { s.lift i with changes := (s.lift i).changes.set l rest } →
    x = { s.lane l with liftInOperation := (s.lane l).liftInOperation.set i inOperation } →
    (x.primaryLift ≠ i → x.secondaryLift ≠ some i →
      exec (.inOperationChange l i) s = .next (u.setLane l x.settle))
    ∧ ((x.primaryLift = i ∨ x.secondaryLift = some i) →
      exec (.inOperationChange l i) s = .next (u.setLane l
        (x.rederiveLift (s.laneEnv l) (if inOperation = true then .returned else .closed)).settle)))
  ∧ ∀ (env : LaneEnv) (x : Lane) (cause : ServedCause) (new : Option LiftNo),
    (x.liftInOperation[x.primaryLift] = true → new = some x.primaryLift) →
    (x.liftInOperation[x.primaryLift] = false →
      (x.secondaryLift = none → new = none)
      ∧ ∀ j, x.secondaryLift = some j → (x.liftInOperation[j] = true → new = some j) ∧ (x.liftInOperation[j] = false → new = none)) →
    (new = x.servedLift → x.rederiveLift env cause = x)
    ∧ (new ≠ x.servedLift → x.admission = none →
        x.rederiveLift env cause = Lane.rederive env { x with servedLift := new })
    ∧ ∀ a, new ≠ x.servedLift → x.admission = some a →
      ((new = some a.lift ∨ (new = none ∧ cause ≠ .closed)) →
        x.rederiveLift env cause = Lane.rederive env { x with servedLift := new })
      ∧ ∀ reason, ((∃ j, new = some j ∧ j ≠ a.lift ∧ reason = ShowReason.liftChanged)
            ∨ (new = none ∧ cause = .closed ∧ reason = ShowReason.liftClosed)) →
        x.resetsPending = 0 → env.discards[a.lift] = false →
        ∃ y : Lane, y = { x with
              servedLift := new
              admission := none
              rowOps := x.rowOps ++ [.closing a.slot a.uid]
              toLifts := (match a.phase with
                | some .unlocked => x.toLifts.set a.lift (x.toLifts[a.lift] ++ [.release a.request])
                | some .hold => x.toLifts.set a.lift (x.toLifts[a.lift] ++ [.leave a.request])
                | none => x.toLifts) }
          ∧ (y.derived ≠ y.effective → x.rederiveLift env cause = y.rederive env)
          ∧ (y.derived = y.effective → x.rederiveLift env cause =
              { y with
                showSlot := some { signal := .red, reason := reason, heads := a.headsTotal - a.headsPassed }
                lastShown := some { signal := .red, reason := reason, heads := a.headsTotal - a.headsPassed } })

/-! ### Ride journal -/

/-- The journal writes a passage-kind record with the next sequence while fewer than 4,080 are held, else counts it as an overflow; either way its lift's bin counts. The
owner that handed the record is relieved of it and keeps everything else. An acknowledgement frees its record and every older one, moving the send position and the replay
cursor to the oldest still held; a replay sets the cursor. The queues in which records stand are the model's choice (log entry 28). -/
def Obligations.JournalTakes : Prop :=
  (∀ (s : State) (owner : RecordOwner) (b : RecordBody) (rest : List RecordBody), s.recordsOf owner = b :: rest →
    ∃ (t : State) (j : Journal), exec (.passageRecordTake owner) s = .next t
      ∧ t = { (match owner with
          | .passTable => { s with table := { s.table with records := rest } }
          | .lane l => s.setLane l { s.lane l with records := rest }) with journal := t.journal }
      ∧ t.recordsOf owner = rest
      ∧ (∀ other, other ≠ owner → t.recordsOf other = s.recordsOf other)
      ∧ (∀ (i : LiftNo) (hour : Fin 24), j.bins[i][hour] =
          if b.lift = some i ∧ b.second / 3600 = hour.val then (s.journal.bins[i][hour] + 1) % 4294967296
          else s.journal.bins[i][hour])
      ∧ (s.journal.held < 4080 → t.journal = j.considerHigh
          ∧ j = { s.journal with
              ring := s.journal.ring ++ [{ sequence := s.journal.nextSequence,
                                           resortLift := b.lift.map fun i => (s.lift i).resortLift, body := b }]
              nextSequence := if s.journal.nextSequence = 4294967295 then 1 else s.journal.nextSequence + 1
              sendPosition := some (s.journal.sendPosition.getD s.journal.nextSequence)
              bins := j.bins })
      ∧ (4080 ≤ s.journal.held → t.journal = j
          ∧ (∀ i, b.lift = some i → j =
              { s.journal with
                liftOverflow := s.journal.liftOverflow.set i ((s.journal.liftOverflow[i] + 1) % 4294967296)
                raises := s.journal.raises ++ [{ condition := .journalOverflow,
                                                 detail := .overflow (some i) ((s.journal.liftOverflow[i] + 1) % 4294967296) }]
                bins := j.bins })
          ∧ (b.lift = none → j =
              { s.journal with
                stationOverflow := (s.journal.stationOverflow + 1) % 4294967296
                raises := s.journal.raises ++ [{ condition := .journalOverflow,
                                                 detail := .overflow none ((s.journal.stationOverflow + 1) % 4294967296) }]
                bins := j.bins })))
  ∧ (∀ (s : State) (r : Routed) (q : Nat), s.Routes .journal .journalAck r → q = field r.body 0 4 →
    (∀ (before after : List JournalRecord) (x : JournalRecord), s.journal.ring = before ++ x :: after → x.sequence = q →
        (∀ y ∈ before, y.sequence ≠ q) →
      ∃ j : Journal, (∀ p, s.journal.sendPosition = some p → (∃ y ∈ after, y.sequence = p) → j.sendPosition = some p)
        ∧ (∀ p, s.journal.sendPosition = some p → (∀ y ∈ after, y.sequence ≠ p) →
            j.sendPosition = after.head?.map fun y => y.sequence)
        ∧ (s.journal.sendPosition = none → j.sendPosition = none)
        ∧ (∀ p, s.journal.replayCursor = some p → (∃ y ∈ after, y.sequence = p) → j.replayCursor = some p)
        ∧ (∀ p, s.journal.replayCursor = some p → (∀ y ∈ after, y.sequence ≠ p) →
            j.replayCursor = after.head?.map fun y => y.sequence)
        ∧ (s.journal.replayCursor = none → j.replayCursor = none)
        ∧ j = { s.journal with ring := after, sendPosition := j.sendPosition, replayCursor := j.replayCursor }
        ∧ exec .journalAck s = .next
          ({ s.dropNextFor .journal with journal := j.considerHigh }.answer r.place .ok (be after.length 2)))
    ∧ ((∀ y ∈ s.journal.ring, y.sequence ≠ q) →
      ∃ code, exec .journalAck s = .next ((s.dropNextFor .journal).answer r.place code [])
        ∧ (q = 0 → code = .badSequence)
        ∧ ∀ oldest distance, q ≠ 0 →
          oldest = (match s.journal.ring with
            | y :: _ => y.sequence
            | [] => s.journal.nextSequence) →
          distance = (oldest + 4294967295 - q) % 4294967295 →
          (1 ≤ distance → distance ≤ 2147483648 → code = .okNoChange)
          ∧ ((distance = 0 ∨ 2147483648 < distance) → code = .badSequence)))
  ∧ (∀ (s : State) (r : Routed) (q : Nat), s.Routes .journal .journalReplay r → q = field r.body 0 4 →
    (q ≠ 0 → (∃ y ∈ s.journal.ring, y.sequence = q) → exec .journalReplay s = .next
      ({ s.dropNextFor .journal with journal := { s.journal with replayCursor := some q } }.answer r.place .ok []))
    ∧ ((q = 0 ∨ ∀ y ∈ s.journal.ring, y.sequence ≠ q) →
      exec .journalReplay s = .next ((s.dropNextFor .journal).answer r.place .badSequence [])))
  ∧ ∀ j : Journal, (j.above = false → j.highMark ≤ j.held →
        j.considerHigh = { j with above := true, raises := j.raises ++ [{ condition := .journalHigh, detail := .heldCount j.held }] })
      ∧ (j.above = false → j.held < j.highMark → j.considerHigh = j)
      ∧ (j.above = true → j.held ≤ j.lowMark → j.considerHigh = { j with above := false })
      ∧ (j.above = true → j.lowMark < j.held → j.considerHigh = j)

/-! ### Refunds -/

/-- The refund arithmetic: what the ridden days are worth, less the weather credit of each day rounded down on its own, is taken off the price, then the fee; the gross never
exceeds the price, and the net never exceeds the price less the fee. -/
def Obligations.RefundFigures : Prop :=
  ∀ (price fee headcount : Nat) (terms : List DayTerm), price ≤ 999999 → terms.length ≤ 14 →
    (∀ t ∈ terms, t.rate ≤ 99999 ∧ t.credit ≤ 100) →
    ∃ c w, c = (figuresOf price fee headcount terms).consumed ∧ w = (figuresOf price fee headcount terms).weather
      ∧ c = (terms.map fun t => t.rate).sum ∧ w = (terms.map fun t => t.rate * t.credit / 100).sum
      ∧ w ≤ c ∧ c - w ≤ 1399986
      ∧ (price ≤ c - w → (figuresOf price fee headcount terms).gross = 0)
      ∧ (c - w < price → (figuresOf price fee headcount terms).gross = price - (c - w))
      ∧ (figuresOf price fee headcount terms).gross ≤ price ∧ (figuresOf price fee headcount terms).gross ≤ 999999
      ∧ ((figuresOf price fee headcount terms).gross ≤ fee → (figuresOf price fee headcount terms).net = 0)
      ∧ (fee < (figuresOf price fee headcount terms).gross →
          (figuresOf price fee headcount terms).net = (figuresOf price fee headcount terms).gross - fee)
      ∧ (figuresOf price fee headcount terms).net ≤ 999999
      ∧ (fee ≤ price → (figuresOf price fee headcount terms).net ≤ price - fee)
      ∧ (price < fee → (figuresOf price fee headcount terms).net = 0)
      ∧ (figuresOf price fee headcount terms).total = (figuresOf price fee headcount terms).net * headcount
      ∧ (headcount ≤ 30 → (figuresOf price fee headcount terms).total ≤ 29999970)

/-- A REFUND_REQUEST is checked in order; a QUOTE then answers with the figures, and a RETIRE appends the REFUND record and retires the row, unless the net is below the
minimum payout or the journal has no room. The figures and the refund field of an ALREADY_RETIRED reply stand in the one layout of the kind. That a request failing its
first check waits for no grant is the model's reading (log entry 40); the order of the fields, and that an ALREADY_RETIRED reply of a row with no refund field carries 0
in all of them, are its choice (log entry 18). -/
def Obligations.RefundsServed : Prop :=
  (∀ (c : RefundCase) (belowMinimum : Bool) (sequence : Nat), (c.bytes belowMinimum sequence).length = 47
    ∧ RefundLayout c belowMinimum sequence (c.bytes belowMinimum sequence))
  ∧ [0, 1].map refundModeOf = [some .quote, some .retire] ∧ (∀ n, 1 < n → refundModeOf n = none)
  ∧ (∀ r : Routed, r.refundMode = refundModeOf (field r.body 8 1))
  ∧ (∀ body : List Byte, refundFormOk body = true ↔ uidField body 0 ≠ 0 ∧ field body 8 1 ≤ 1)
  ∧ (∀ (s : State) (r : Routed), s.BadRefund r →
    (r.refundMode ≠ some .retire → exec .refundQuote s = .next ((s.dropNextFor .refundUnit).answer r.place .badField []))
    ∧ (r.refundMode = some .retire → exec .refundRetire s = .next ((s.dropNextFor .refundUnit).answer r.place .badField [])))
  ∧ (∀ (s : State) (r : Routed) (uid : Uid), (∀ q, ¬ s.BadRefund q) → s.Presents .refundRequest r → uid = uidField r.body 0 →
    (∀ code fields, s.valuePass uid = .error (code, fields) →
      (r.refundMode ≠ some .retire → exec .refundQuote s = .next ((s.served r).answer r.place code fields))
      ∧ (r.refundMode = some .retire → exec .refundRetire s = .next ((s.served r).answer r.place code fields)))
    ∧ ∀ c, s.valuePass uid = .ok c →
      (c.figures.net < s.minimumPayout →
        (r.refundMode ≠ some .retire → exec .refundQuote s = .next ((s.served r).answer r.place .belowMinimum (c.bytes true 0)))
        ∧ (r.refundMode = some .retire →
          exec .refundRetire s = .next ((s.served r).answer r.place .belowMinimum (c.bytes true 0))))
      ∧ (s.minimumPayout ≤ c.figures.net →
        (r.refundMode ≠ some .retire → exec .refundQuote s = .next ((s.served r).answer r.place .ok (c.bytes false 0)))
        ∧ (r.refundMode = some .retire → 4096 ≤ s.journal.held →
          exec .refundRetire s = .next ((s.served r).answer r.place .journalFull (c.bytes false 0)))
        ∧ (r.refundMode = some .retire → s.journal.held < 4096 →
          exec .refundRetire s = .next
            (({ s.served r with
                journal := (s.journal.append none
                  { kind := .refund, second := s.calendar.secondOfDay, day := some c.day, lane := none, lift := none,
                    uid := some uid, headIndex := none, newDay := none, amountPerHead := some c.figures.net,
                    headcount := some c.row.headcount, unusedDays := some c.unused }).considerHigh }.writeRow c.slot
                { c.row with
                  status := .retired
                  refund := some { paidPerHead := c.figures.net, balancePerHead := c.figures.net, retireDay := c.day } }).answer
              r.place .ok (c.bytes false s.journal.nextSequence)))))
  ∧ ∀ (s : State) (uid : Uid),
    (s.calendar.currentDay = none → s.valuePass uid = .error (.noDay, []))
    ∧ ∀ day, s.calendar.currentDay = some day →
      (lookup s.table.slots uid = none → s.valuePass uid = .error (.unknown, []))
      ∧ ∀ slot row p, lookup s.table.slots uid = some (slot, row) → p = s.product row.product →
        (row.status = .blocked → s.valuePass uid = .error (.blocked, []))
        ∧ (row.status = .retired → ∃ fields, s.valuePass uid = .error (.alreadyRetired, fields)
          ∧ (row.refund = none → fields = [])
          ∧ ∀ f, row.refund = some f → fields.length = 11 ∧ RetiredLayout f row.headcount fields)
        ∧ (row.status = .active → p.isDefined = false → s.valuePass uid = .error (.noProduct, []))
        ∧ (row.status = .active → p.isDefined = true → (p.kind ≠ .multiDay ∨ p.refundable = false) →
            s.valuePass uid = .error (.notRefundable, []))
        ∧ (row.status = .active → p.isDefined = true → p.kind = .multiDay → p.refundable = true →
          ∀ deadline, deadline = row.expiryDay.getD p.validTo + p.refundGrace →
            (deadline < day → s.valuePass uid = .error (.expired, []))
            ∧ (day ≤ deadline → row.pendingLane ≠ none → s.valuePass uid = .error (.passBusy, []))
            ∧ (day ≤ deadline → row.pendingLane = none → p.dayCount ≤ row.consumed.length →
                s.valuePass uid = .error (.nothingUnused, []))
            ∧ (day ≤ deadline → row.pendingLane = none → row.consumed.length < p.dayCount →
                s.valuePass uid = .ok
                  { slot := slot, row := row, day := day, deadline := deadline, unused := p.dayCount - row.consumed.length,
                    figures := figuresOf row.pricePerHead p.refundFee row.headcount (row.consumed.map fun d =>
                      { rate := (match (s.calendar.day d).dayClass with
                          | .peak => p.peakRate
                          | .regular => p.regularRate
                          | .low => p.lowRate)
                        credit := s.creditPercent d }) }))

/-! ### Streams -/

/-- STREAM_OPEN starts a stream anew in IDLE; STREAM_DATA of the expected chunk is applied row by row, each at a grant of the table port as a PASS_PUT of the stream's
generation, and after its last row the counts and the expected chunk move on and stand in the reply. That a STREAM_OPEN refused in OPEN restarts the idle deadline is the
model's choice (log entry 23). The places of the reply's fields, the expected chunk first and each count in one byte, follow R197 where it speaks and the model's choice
of order and widths where it does not (log entry 18). That a row refused OVERCONSUMED raises no notice is its reading (log entry 36). -/
def Obligations.StreamsLoad : Prop :=
  (∀ (s : State) (r : Routed) (u : State), s.StreamAsks .streamOpen r →
    u = { s.dropNextFor .streamUnit with
      stream := { s.stream with
        idleDeadline := if s.stream.state = .opened then some { setAt := s.timebase, duration := 30000 }
          else s.stream.idleDeadline } } →
    (1 < field r.body 1 1 → exec .streamOpen s = .next (u.answer r.place .badField []))
    ∧ (field r.body 1 1 ≤ 1 → s.stream.state ≠ .idle →
      exec .streamOpen s = .next (u.answer r.place .streamBusy [s.stream.state.code]))
    ∧ (field r.body 1 1 ≤ 1 → s.stream.state = .idle →
      exec .streamOpen s = .next
        ({ s.dropNextFor .streamUnit with
            stream :=
              { state := .opened, generation := byteField r.body 0, sweepFlag := decide (field r.body 1 1 = 1),
                expectedChunk := 0, rowsApplied := 0, rowsRefused := 0, firstRefused := none, sweepCursor := 0,
                sweepDeleted := 0, sweepKeptBusy := 0, sweepKeptRefunded := 0,
                idleDeadline := some { setAt := s.timebase, duration := 30000 }, chunk := none,
                raises := s.stream.raises } }.answer r.place .ok [])))
  ∧ (∀ (s : State) (r : Routed) (u : State) (number count : Nat), s.StreamAsks .streamData r →
    number = field r.body 0 2 → count = field r.body 2 1 →
    u = { s.dropNextFor .streamUnit with
      stream := { s.stream with
        idleDeadline := if s.stream.state = .opened then some { setAt := s.timebase, duration := 30000 }
          else s.stream.idleDeadline } } →
    ((count = 0 ∨ 16 < count) → exec .streamData s = .next (u.answer r.place .badField []))
    ∧ (1 ≤ count → count ≤ 16 →
      ((s.stream.state = .idle ∨ s.stream.state = .sweeping) → exec .streamData s = .next (u.answer r.place .noStream []))
      ∧ (s.stream.state = .suspended → exec .streamData s = .next (u.answer r.place .suspended []))
      ∧ (s.stream.state = .opened → number ≠ s.stream.expectedChunk →
        exec .streamData s = .next (u.answer r.place .outOfOrder (be s.stream.expectedChunk 2)))
      ∧ (s.stream.state = .opened → number = s.stream.expectedChunk →
        ∃ rows : List (List Byte), rows.length = count
          ∧ (∀ k < count, rows[k]? = some ((r.body.drop (3 + 36 * k)).take 36))
          ∧ exec .streamData s = .next
            { s.dropNextFor .streamUnit with
              stream := { s.stream with
                idleDeadline := none
                chunk := some { place := r.place, number := number, rows := rows, position := 0, refusedRows := [] } } })))
  ∧ ∀ (s : State) (c : Chunk) (row : List Byte) (rest : List (List Byte)) (code : ReplyCode) (u : State)
      (refused : List (Nat × ReplyCode)),
    s.nextGrant = some .streamUnit → s.stream.chunk = some c → c.rows = row :: rest →
    (code, u) = (s.granted .streamUnit).applyPut { passForm row with generation := s.stream.generation } →
    refused = c.refusedRows ++ (if code = .ok then [] else [(c.position, code)]) →
    (rest ≠ [] → exec .streamChunkRow s = .next
      { u with stream := { s.stream with
          chunk := some { c with rows := rest, position := c.position + 1, refusedRows := refused } } })
    ∧ (rest = [] → ∃ (x : Stream) (bytes : List Byte), x = { s.stream with
          rowsApplied := min 1048560 (s.stream.rowsApplied + (c.position + 1 - refused.length))
          rowsRefused := min 1048560 (s.stream.rowsRefused + refused.length)
          firstRefused := (match s.stream.firstRefused with
            | some f => some f
            | none => refused.head?.map fun q => { chunk := c.number, position := q.1, reason := q.2 })
          expectedChunk := (s.stream.expectedChunk + 1) % 65536
          idleDeadline := some { setAt := s.timebase, duration := 30000 }
          chunk := none }
      ∧ bytes.length = 39 ∧ ChunkLayout x.expectedChunk c.number (c.position + 1 - refused.length) refused bytes
      ∧ exec .streamChunkRow s = .next ({ u with stream := x }.answer c.place .ok bytes))

/-- STREAM_SUSPEND and STREAM_RESUME stop and restart the idle deadline; STREAM_CLOSE ends the stream or begins its sweep; STREAM_ABORT ends it where it stands; 30 s
without a request time it out; and each sweep step keeps or deletes the row under the cursor. The replies to STREAM_CLOSE and STREAM_ABORT carry the counts as they stand,
each at its place by R197; the order and widths R197 leaves open are the model's choice (log entry 18). That an expiry may be taken late (log entry 6), that a sweep step
leaves the table port arbiter as it stands (log entry 15), and that the cursor goes to 0 as the sweep ends (log entry 24), are the model's readings. -/
def Obligations.StreamsEnd : Prop :=
  (∀ (x : Stream) (newState : StreamState), (streamCloseBytes x newState).length = 17
    ∧ StreamCloseLayout x newState (streamCloseBytes x newState))
  ∧ (∀ x : Stream, StreamAbortLayout x (streamAbortBytes x))
  ∧ (∀ (s : State) (u v : State),
    v = s.dropNextFor .streamUnit →
    u = { v with
      stream := { s.stream with
        idleDeadline := if s.stream.state = .opened then some { setAt := s.timebase, duration := 30000 }
          else s.stream.idleDeadline } } →
    (∀ r, s.StreamAsks .streamSuspend r →
      (s.stream.state ≠ .opened → exec .streamSuspend s = .next (u.answer r.place .wrongState []))
      ∧ (s.stream.state = .opened → exec .streamSuspend s = .next
        ({ v with stream := { s.stream with state := .suspended, idleDeadline := none } }.answer r.place .ok [])))
    ∧ (∀ r, s.StreamAsks .streamResume r →
      (s.stream.state ≠ .suspended → exec .streamResume s = .next (u.answer r.place .wrongState []))
      ∧ (s.stream.state = .suspended → exec .streamResume s = .next
        ({ v with
            stream := { s.stream with
              state := .opened, idleDeadline := some { setAt := s.timebase, duration := 30000 } } }.answer r.place .ok [])))
    ∧ (∀ r, s.StreamAsks .streamClose r →
      ((s.stream.state = .idle ∨ s.stream.state = .sweeping) → exec .streamClose s = .next (u.answer r.place .wrongState []))
      ∧ ((s.stream.state = .opened ∨ s.stream.state = .suspended) →
        (s.stream.sweepFlag = false → exec .streamClose s = .next
          ({ v with
              stream := { s.stream with
                state := .idle, idleDeadline := none
                raises := s.stream.raises ++
                  [({ condition := .streamDone,
                      detail := .streamDone s.stream.generation s.stream.rowsApplied s.stream.rowsRefused s.stream.firstRefused
                        0 0 0 } : Raise)] } }.answer r.place .ok (streamCloseBytes s.stream .idle)))
        ∧ (s.stream.sweepFlag = true → exec .streamClose s = .next
          ({ v with
              stream := { s.stream with
                state := .sweeping, idleDeadline := none, sweepCursor := 0, sweepDeleted := 0, sweepKeptBusy := 0,
                sweepKeptRefunded := 0 } }.answer r.place .ok (streamCloseBytes s.stream .sweeping)))))
    ∧ ∀ r, s.StreamAsks .streamAbort r →
      (s.stream.state = .idle → exec .streamAbort s = .next (u.answer r.place .noStream []))
      ∧ (s.stream.state ≠ .idle → exec .streamAbort s = .next
        ({ v with stream := { s.stream with state := .idle, idleDeadline := none } }.answer r.place .ok
          (streamAbortBytes s.stream))))
  ∧ (∀ (s : State) (d : Deadline), s.stream.state = .opened → s.stream.chunk = none → s.stream.idleDeadline = some d →
    d.duration ≤ (s.timebase - d.setAt).toNat →
    exec .streamIdleExpiry s = .next
      { s with
        stream := { s.stream with
          state := .idle, idleDeadline := none
          raises := s.stream.raises ++
            [{ condition := .streamTimeout,
               detail := .streamTimeout s.stream.generation s.stream.expectedChunk s.stream.rowsApplied
                 s.stream.rowsRefused }] } })
  ∧ (∀ s : State, s.nextGrant = some .sweep →
    (slotAt s.table.slots s.stream.sweepCursor = none → exec .sweepStep s = .next { s with stream := s.stream.advance })
    ∧ ∀ row, slotAt s.table.slots s.stream.sweepCursor = some row →
      (row.generation = s.stream.generation → exec .sweepStep s = .next { s with stream := s.stream.advance })
      ∧ (row.generation ≠ s.stream.generation →
        (row.pendingLane ≠ none → exec .sweepStep s = .next
          { s with stream := Stream.advance { s.stream with sweepKeptBusy := s.stream.sweepKeptBusy + 1 } })
        ∧ (row.pendingLane = none → row.refund ≠ none → exec .sweepStep s = .next
          { s with stream := Stream.advance { s.stream with sweepKeptRefunded := s.stream.sweepKeptRefunded + 1 } })
        ∧ (row.pendingLane = none → row.refund = none → exec .sweepStep s = .next
          { s.deleteRow s.stream.sweepCursor row with
            stream := Stream.advance { s.stream with sweepDeleted := s.stream.sweepDeleted + 1 } })))
  ∧ ∀ x : Stream,
    (x.sweepCursor < 65535 → x.advance = { x with sweepCursor := x.sweepCursor + 1 })
    ∧ (65535 ≤ x.sweepCursor → x.advance =
      { x with
        state := .idle, sweepCursor := 0
        raises := x.raises ++
          [({ condition := .streamDone,
              detail := .streamDone x.generation x.rowsApplied x.rowsRefused x.firstRefused x.sweepDeleted x.sweepKeptBusy
                x.sweepKeptRefunded } : Raise)] })
end

