-- ==== Sys2Proof/Laws/Formats.lean ====
section
/-! SUPPORT. What reads back from the bytes of a reply: the length of each piece, and the number each field spells. -/
namespace Sys2Proof.Machine

/-! ### Lengths -/

@[simp] theorem be_length (n len : Nat) : (be n len).length = len := by
  induction len with
  | zero => rfl
  | succ len ih => simp [be, ih]

@[simp] theorem uidBytes_length (uid : Uid) : (uidBytes uid).length = 8 := be_length _ _

@[simp] theorem optionalBytes_length (n : Option Nat) (len : Nat) : (optionalBytes n len).length = len + 1 := by
  cases n <;> simp [optionalBytes]

@[simp] theorem firstRefusedBytes_length (first : Option FirstRefused) : (firstRefusedBytes first).length = 5 := by
  cases first <;> simp [firstRefusedBytes]

theorem flatten_length {entries : List (List Byte)} {size : Nat} (h : ∀ e ∈ entries, e.length = size) :
    entries.flatten.length = size * entries.length := by
  induction entries with
  | nil => simp
  | cons e rest ih =>
    simp only [List.flatten_cons, List.length_append, List.length_cons, h e (by simp), ih fun x hx => h x (by simp [hx])]
    ring

theorem listBytes_length {entries : List (List Byte)} {greatest size : Nat} (h : ∀ e ∈ entries, e.length = size) :
    (listBytes entries greatest size).length = 1 + greatest * size := by
  have taken := flatten_length (entries := entries.take greatest) (size := size) fun e he => h e (List.mem_of_mem_take he)
  have least : size * (entries.take greatest).length ≤ greatest * size := by
    rw [Nat.mul_comm]; exact Nat.mul_le_mul_right _ (by simp)
  simp only [listBytes, padTo, List.length_cons, List.length_append, List.length_replicate, taken]
  omega

/-! ### Numbers -/

theorem numberOf_append_singleton (bytes : List Byte) (b : Byte) : numberOf (bytes ++ [b]) = numberOf bytes * 256 + b.toNat := by
  simp [numberOf, List.foldl_append]

theorem numberOf_cons (b : Byte) (bytes : List Byte) : numberOf (b :: bytes) = b.toNat * 256 ^ bytes.length + numberOf bytes := by
  induction bytes using List.reverseRecOn with
  | nil => simp [numberOf]
  | append_singleton bytes c ih =>
    rw [← List.cons_append, numberOf_append_singleton, ih, numberOf_append_singleton, List.length_append, List.length_singleton]
    ring

theorem numberOf_be (n len : Nat) : numberOf (be n len) = n % 256 ^ len := by
  induction len with
  | zero => simp [be, numberOf, Nat.mod_one]
  | succ len ih =>
    rw [be, numberOf_cons, ih, be_length, Nat.pow_succ, Nat.mod_mul, BitVec.toNat_ofNat]
    ring

theorem numberOf_replicate (len : Nat) : numberOf (List.replicate len 0) = 0 := by
  induction len with
  | zero => rfl
  | succ len ih => rw [List.replicate_succ, numberOf_cons, ih]; simp

/-! ### Fields -/

theorem field_append_left {a b : List Byte} {offset len : Nat} (h : offset + len ≤ a.length) :
    field (a ++ b) offset len = field a offset len := by
  simp only [field]
  rw [List.drop_append_of_le_length (by omega), List.take_append_of_le_length (by simp; omega)]

theorem field_append_right {a b : List Byte} {offset len : Nat} (h : a.length ≤ offset) :
    field (a ++ b) offset len = field b (offset - a.length) len := by
  simp only [field]
  rw [List.drop_append, List.drop_of_length_le h, List.nil_append]

theorem field_cons_succ (b : Byte) (bytes : List Byte) (offset len : Nat) :
    field (b :: bytes) (offset + 1) len = field bytes offset len := rfl

theorem field_whole {bytes : List Byte} {len : Nat} (h : bytes.length = len) : field bytes 0 len = numberOf bytes := by
  simp [field, ← h]

theorem field_be (n len : Nat) : field (be n len) 0 len = n % 256 ^ len := by rw [field_whole (be_length n len), numberOf_be]

theorem field_replicate (count offset len : Nat) : field (List.replicate count (0 : Byte)) offset len = 0 := by
  simp only [field, List.drop_replicate, List.take_replicate, numberOf_replicate]

theorem field_byte (b : Byte) (rest : List Byte) : field (b :: rest) 0 1 = b.toNat := by simp [field, numberOf]

theorem flagByte_toNat (b : Bool) : (flagByte b).toNat = if b then 1 else 0 := by cases b <;> rfl

/-! ### Optional fields -/

theorem optionalAt_bytes (n : Option Nat) (len : Nat) : optionalAt (optionalBytes n len) 0 len n := by
  cases n with
  | none => rw [optionalAt, field_whole (by simp [Nat.add_comm]), optionalBytes, numberOf_cons, numberOf_be]; simp
  | some v =>
    simp only [optionalAt, optionalBytes, numberAt]
    exact ⟨by simp [field_byte], by rw [field_cons_succ, field_be]⟩

theorem optionalAt_append_left {a b : List Byte} {offset len : Nat} {n : Option Nat} (h : offset + 1 + len ≤ a.length) :
    optionalAt (a ++ b) offset len n ↔ optionalAt a offset len n := by
  cases n <;> simp only [optionalAt, numberAt]
  · rw [field_append_left (by omega)]
  · rw [field_append_left (by omega), field_append_left (by omega)]

theorem optionalAt_append_right {a b : List Byte} {offset len : Nat} {n : Option Nat} (h : a.length ≤ offset) :
    optionalAt (a ++ b) offset len n ↔ optionalAt b (offset - a.length) len n := by
  cases n <;> simp only [optionalAt, numberAt]
  · rw [field_append_right h]
  · rw [field_append_right h, field_append_right (by omega), show offset + 1 - a.length = offset - a.length + 1 by omega]

theorem optionalAt_cons_succ (b : Byte) (bytes : List Byte) (offset len : Nat) (n : Option Nat) :
    optionalAt (b :: bytes) (offset + 1) len n ↔ optionalAt bytes offset len n :=
  optionalAt_append_right (a := [b]) (by simp)

theorem firstRefusedAt_bytes (first : Option FirstRefused) : firstRefusedAt (firstRefusedBytes first) 0 first := by
  cases first with
  | none => exact field_replicate 5 0 5
  | some f =>
    simp (disch := simp) [firstRefusedAt, firstRefusedBytes, field_append_left, field_append_right, field_byte, field_cons_succ,
      field_be, numberAt]

theorem firstRefusedAt_append_left {a b : List Byte} {offset : Nat} {first : Option FirstRefused} (h : offset + 5 ≤ a.length) :
    firstRefusedAt (a ++ b) offset first ↔ firstRefusedAt a offset first := by
  cases first <;> simp only [firstRefusedAt, numberAt]
  · rw [field_append_left (by omega)]
  · rw [field_append_left (by omega), field_append_left (by omega), field_append_left (by omega), field_append_left (by omega)]

theorem firstRefusedAt_append_right {a b : List Byte} {offset : Nat} {first : Option FirstRefused} (h : a.length ≤ offset) :
    firstRefusedAt (a ++ b) offset first ↔ firstRefusedAt b (offset - a.length) first := by
  cases first <;> simp only [firstRefusedAt, numberAt]
  · rw [field_append_right h]
  · rw [field_append_right h, field_append_right (by omega), field_append_right (by omega), field_append_right (by omega),
      show offset + 1 - a.length = offset - a.length + 1 by omega, show offset + 3 - a.length = offset - a.length + 3 by omega,
      show offset + 4 - a.length = offset - a.length + 4 by omega]

theorem firstRefusedAt_cons_succ (b : Byte) (bytes : List Byte) (offset : Nat) (first : Option FirstRefused) :
    firstRefusedAt (b :: bytes) (offset + 1) first ↔ firstRefusedAt bytes offset first :=
  firstRefusedAt_append_right (a := [b]) (by simp)

/-! ### Lists -/

theorem field_flatten {α : Type} {encode : α → List Byte} {value : α → Nat} {size : Nat} (long : ∀ a, (encode a).length = size)
    (spells : ∀ a, numberOf (encode a) = value a % 256 ^ size) (entries : List α) (count j : Nat) :
    field ((entries.map encode).flatten ++ List.replicate count 0) (size * j) size
      = ((entries.map value)[j]?.getD 0) % 256 ^ size := by
  induction entries generalizing j with
  | nil => exact (field_replicate count (size * j) size).trans (Nat.zero_mod _).symm
  | cons a rest ih =>
    rw [List.map_cons, List.flatten_cons, List.append_assoc]
    cases j with
    | zero => rw [Nat.mul_zero, field_append_left (by simp [long]), field_whole (long a), spells]; rfl
    | succ j =>
      rw [field_append_right (by rw [long, Nat.mul_succ]; omega), long, show size * (j + 1) - size = size * j by rw [Nat.mul_succ]; omega, ih]
      rfl

theorem listAt_bytes {α : Type} {encode : α → List Byte} {value : α → Nat} {greatest size : Nat}
    (long : ∀ a, (encode a).length = size) (spells : ∀ a, numberOf (encode a) = value a % 256 ^ size) (entries : List α)
    (small : greatest < 256) : listAt (listBytes (entries.map encode) greatest size) 0 greatest size (entries.map value) := by
  refine ⟨?_, fun j hj => ?_⟩
  · rw [listBytes, field_byte, BitVec.toNat_ofNat, List.length_map, List.length_map]; omega
  · rw [numberAt, listBytes, padTo, ← List.map_take, Nat.zero_add, Nat.add_comm 1, field_cons_succ, field_flatten long spells]
    simp [hj]

theorem listAt_append_left {a b : List Byte} {offset greatest size : Nat} {entries : List Nat}
    (h : offset + 1 + greatest * size ≤ a.length) : listAt (a ++ b) offset greatest size entries ↔ listAt a offset greatest size entries := by
  have inside : ∀ j < greatest, offset + 1 + size * j + size ≤ a.length := fun j hj => by
    have : size * (j + 1) ≤ greatest * size := by rw [Nat.mul_comm]; exact Nat.mul_le_mul_right _ hj
    rw [Nat.mul_succ] at this; omega
  simp only [listAt, numberAt]
  rw [field_append_left (by omega)]
  exact and_congr Iff.rfl (forall_congr' fun j => forall_congr' fun hj => by rw [field_append_left (inside j hj)])

theorem listAt_append_right {a b : List Byte} {offset greatest size : Nat} {entries : List Nat} (h : a.length ≤ offset) :
    listAt (a ++ b) offset greatest size entries ↔ listAt b (offset - a.length) greatest size entries := by
  simp only [listAt, numberAt]
  rw [field_append_right h]
  refine and_congr Iff.rfl (forall_congr' fun j => forall_congr' fun hj => ?_)
  rw [field_append_right (by omega), show offset + 1 + size * j - a.length = offset - a.length + 1 + size * j by omega]

theorem listAt_cons_succ (b : Byte) (bytes : List Byte) (offset greatest size : Nat) (entries : List Nat) :
    listAt (b :: bytes) (offset + 1) greatest size entries ↔ listAt bytes offset greatest size entries :=
  listAt_append_right (a := [b]) (by simp)

end Sys2Proof.Machine
end

