-- ==== Sys2Proof/Laws/State.lean ====
section
/-! SUPPORT. One lemma per field per update of State, so that no later proof unfolds a record update. -/
namespace Sys2Proof.Machine

/-! ### `State.setLane` -/

@[simp] theorem State.setLane_trunk (s : State) (l : LaneNo) (x : Lane) : (s.setLane l x).trunk = s.trunk := rfl
@[simp] theorem State.setLane_routed (s : State) (l : LaneNo) (x : Lane) : (s.setLane l x).routed = s.routed := rfl
@[simp] theorem State.setLane_table (s : State) (l : LaneNo) (x : Lane) : (s.setLane l x).table = s.table := rfl
@[simp] theorem State.setLane_arbiter (s : State) (l : LaneNo) (x : Lane) : (s.setLane l x).arbiter = s.arbiter := rfl
@[simp] theorem State.setLane_products (s : State) (l : LaneNo) (x : Lane) : (s.setLane l x).products = s.products := rfl
@[simp] theorem State.setLane_protection (s : State) (l : LaneNo) (x : Lane) : (s.setLane l x).protection = s.protection := rfl
@[simp] theorem State.setLane_serviceKey (s : State) (l : LaneNo) (x : Lane) : (s.setLane l x).serviceKey = s.serviceKey := rfl
@[simp] theorem State.setLane_calendar (s : State) (l : LaneNo) (x : Lane) : (s.setLane l x).calendar = s.calendar := rfl
@[simp] theorem State.setLane_lifts (s : State) (l : LaneNo) (x : Lane) : (s.setLane l x).lifts = s.lifts := rfl
@[simp] theorem State.setLane_journal (s : State) (l : LaneNo) (x : Lane) : (s.setLane l x).journal = s.journal := rfl
@[simp] theorem State.setLane_minimumPayout (s : State) (l : LaneNo) (x : Lane) : (s.setLane l x).minimumPayout = s.minimumPayout := rfl
@[simp] theorem State.setLane_stream (s : State) (l : LaneNo) (x : Lane) : (s.setLane l x).stream = s.stream := rfl
@[simp] theorem State.setLane_timebase (s : State) (l : LaneNo) (x : Lane) : (s.setLane l x).timebase = s.timebase := rfl
@[simp] theorem State.setLane_resetLine (s : State) (l : LaneNo) (x : Lane) : (s.setLane l x).resetLine = s.resetLine := rfl
@[simp] theorem State.setLane_freeIndex (s : State) (l : LaneNo) (x : Lane) : (s.setLane l x).freeIndex = s.freeIndex := rfl
@[simp] theorem State.setLane_pending (s : State) (l : LaneNo) (x : Lane) : (s.setLane l x).pending = s.pending := rfl

/-! ### `State.setLift` -/

@[simp] theorem State.setLift_trunk (s : State) (i : LiftNo) (x : Lift) : (s.setLift i x).trunk = s.trunk := rfl
@[simp] theorem State.setLift_routed (s : State) (i : LiftNo) (x : Lift) : (s.setLift i x).routed = s.routed := rfl
@[simp] theorem State.setLift_table (s : State) (i : LiftNo) (x : Lift) : (s.setLift i x).table = s.table := rfl
@[simp] theorem State.setLift_arbiter (s : State) (i : LiftNo) (x : Lift) : (s.setLift i x).arbiter = s.arbiter := rfl
@[simp] theorem State.setLift_products (s : State) (i : LiftNo) (x : Lift) : (s.setLift i x).products = s.products := rfl
@[simp] theorem State.setLift_protection (s : State) (i : LiftNo) (x : Lift) : (s.setLift i x).protection = s.protection := rfl
@[simp] theorem State.setLift_serviceKey (s : State) (i : LiftNo) (x : Lift) : (s.setLift i x).serviceKey = s.serviceKey := rfl
@[simp] theorem State.setLift_calendar (s : State) (i : LiftNo) (x : Lift) : (s.setLift i x).calendar = s.calendar := rfl
@[simp] theorem State.setLift_lanes (s : State) (i : LiftNo) (x : Lift) : (s.setLift i x).lanes = s.lanes := rfl
@[simp] theorem State.setLift_journal (s : State) (i : LiftNo) (x : Lift) : (s.setLift i x).journal = s.journal := rfl
@[simp] theorem State.setLift_minimumPayout (s : State) (i : LiftNo) (x : Lift) : (s.setLift i x).minimumPayout = s.minimumPayout := rfl
@[simp] theorem State.setLift_stream (s : State) (i : LiftNo) (x : Lift) : (s.setLift i x).stream = s.stream := rfl
@[simp] theorem State.setLift_timebase (s : State) (i : LiftNo) (x : Lift) : (s.setLift i x).timebase = s.timebase := rfl
@[simp] theorem State.setLift_resetLine (s : State) (i : LiftNo) (x : Lift) : (s.setLift i x).resetLine = s.resetLine := rfl
@[simp] theorem State.setLift_freeIndex (s : State) (i : LiftNo) (x : Lift) : (s.setLift i x).freeIndex = s.freeIndex := rfl
@[simp] theorem State.setLift_pending (s : State) (i : LiftNo) (x : Lift) : (s.setLift i x).pending = s.pending := rfl

/-! ### `State.setProduct` -/

@[simp] theorem State.setProduct_trunk (s : State) (c : ProductCode) (p : Product) : (s.setProduct c p).trunk = s.trunk := rfl
@[simp] theorem State.setProduct_routed (s : State) (c : ProductCode) (p : Product) : (s.setProduct c p).routed = s.routed := rfl
@[simp] theorem State.setProduct_table (s : State) (c : ProductCode) (p : Product) : (s.setProduct c p).table = s.table := rfl
@[simp] theorem State.setProduct_arbiter (s : State) (c : ProductCode) (p : Product) : (s.setProduct c p).arbiter = s.arbiter := rfl
@[simp] theorem State.setProduct_protection (s : State) (c : ProductCode) (p : Product) : (s.setProduct c p).protection = s.protection := rfl
@[simp] theorem State.setProduct_serviceKey (s : State) (c : ProductCode) (p : Product) : (s.setProduct c p).serviceKey = s.serviceKey := rfl
@[simp] theorem State.setProduct_calendar (s : State) (c : ProductCode) (p : Product) : (s.setProduct c p).calendar = s.calendar := rfl
@[simp] theorem State.setProduct_lanes (s : State) (c : ProductCode) (p : Product) : (s.setProduct c p).lanes = s.lanes := rfl
@[simp] theorem State.setProduct_lifts (s : State) (c : ProductCode) (p : Product) : (s.setProduct c p).lifts = s.lifts := rfl
@[simp] theorem State.setProduct_journal (s : State) (c : ProductCode) (p : Product) : (s.setProduct c p).journal = s.journal := rfl
@[simp] theorem State.setProduct_minimumPayout (s : State) (c : ProductCode) (p : Product) : (s.setProduct c p).minimumPayout = s.minimumPayout := rfl
@[simp] theorem State.setProduct_stream (s : State) (c : ProductCode) (p : Product) : (s.setProduct c p).stream = s.stream := rfl
@[simp] theorem State.setProduct_timebase (s : State) (c : ProductCode) (p : Product) : (s.setProduct c p).timebase = s.timebase := rfl
@[simp] theorem State.setProduct_resetLine (s : State) (c : ProductCode) (p : Product) : (s.setProduct c p).resetLine = s.resetLine := rfl
@[simp] theorem State.setProduct_freeIndex (s : State) (c : ProductCode) (p : Product) : (s.setProduct c p).freeIndex = s.freeIndex := rfl
@[simp] theorem State.setProduct_pending (s : State) (c : ProductCode) (p : Product) : (s.setProduct c p).pending = s.pending := rfl

/-! ### `State.countRow` -/

@[simp] theorem State.countRow_trunk (s : State) (c : ProductCode) : (s.countRow c).trunk = s.trunk := rfl
@[simp] theorem State.countRow_routed (s : State) (c : ProductCode) : (s.countRow c).routed = s.routed := rfl
@[simp] theorem State.countRow_table (s : State) (c : ProductCode) : (s.countRow c).table = s.table := rfl
@[simp] theorem State.countRow_arbiter (s : State) (c : ProductCode) : (s.countRow c).arbiter = s.arbiter := rfl
@[simp] theorem State.countRow_protection (s : State) (c : ProductCode) : (s.countRow c).protection = s.protection := rfl
@[simp] theorem State.countRow_serviceKey (s : State) (c : ProductCode) : (s.countRow c).serviceKey = s.serviceKey := rfl
@[simp] theorem State.countRow_calendar (s : State) (c : ProductCode) : (s.countRow c).calendar = s.calendar := rfl
@[simp] theorem State.countRow_lanes (s : State) (c : ProductCode) : (s.countRow c).lanes = s.lanes := rfl
@[simp] theorem State.countRow_lifts (s : State) (c : ProductCode) : (s.countRow c).lifts = s.lifts := rfl
@[simp] theorem State.countRow_journal (s : State) (c : ProductCode) : (s.countRow c).journal = s.journal := rfl
@[simp] theorem State.countRow_minimumPayout (s : State) (c : ProductCode) : (s.countRow c).minimumPayout = s.minimumPayout := rfl
@[simp] theorem State.countRow_stream (s : State) (c : ProductCode) : (s.countRow c).stream = s.stream := rfl
@[simp] theorem State.countRow_timebase (s : State) (c : ProductCode) : (s.countRow c).timebase = s.timebase := rfl
@[simp] theorem State.countRow_resetLine (s : State) (c : ProductCode) : (s.countRow c).resetLine = s.resetLine := rfl
@[simp] theorem State.countRow_freeIndex (s : State) (c : ProductCode) : (s.countRow c).freeIndex = s.freeIndex := rfl
@[simp] theorem State.countRow_pending (s : State) (c : ProductCode) : (s.countRow c).pending = s.pending := rfl

/-! ### `State.uncountRow` -/

@[simp] theorem State.uncountRow_trunk (s : State) (c : ProductCode) : (s.uncountRow c).trunk = s.trunk := rfl
@[simp] theorem State.uncountRow_routed (s : State) (c : ProductCode) : (s.uncountRow c).routed = s.routed := rfl
@[simp] theorem State.uncountRow_table (s : State) (c : ProductCode) : (s.uncountRow c).table = s.table := rfl
@[simp] theorem State.uncountRow_arbiter (s : State) (c : ProductCode) : (s.uncountRow c).arbiter = s.arbiter := rfl
@[simp] theorem State.uncountRow_protection (s : State) (c : ProductCode) : (s.uncountRow c).protection = s.protection := rfl
@[simp] theorem State.uncountRow_serviceKey (s : State) (c : ProductCode) : (s.uncountRow c).serviceKey = s.serviceKey := rfl
@[simp] theorem State.uncountRow_calendar (s : State) (c : ProductCode) : (s.uncountRow c).calendar = s.calendar := rfl
@[simp] theorem State.uncountRow_lanes (s : State) (c : ProductCode) : (s.uncountRow c).lanes = s.lanes := rfl
@[simp] theorem State.uncountRow_lifts (s : State) (c : ProductCode) : (s.uncountRow c).lifts = s.lifts := rfl
@[simp] theorem State.uncountRow_journal (s : State) (c : ProductCode) : (s.uncountRow c).journal = s.journal := rfl
@[simp] theorem State.uncountRow_minimumPayout (s : State) (c : ProductCode) : (s.uncountRow c).minimumPayout = s.minimumPayout := rfl
@[simp] theorem State.uncountRow_stream (s : State) (c : ProductCode) : (s.uncountRow c).stream = s.stream := rfl
@[simp] theorem State.uncountRow_timebase (s : State) (c : ProductCode) : (s.uncountRow c).timebase = s.timebase := rfl
@[simp] theorem State.uncountRow_resetLine (s : State) (c : ProductCode) : (s.uncountRow c).resetLine = s.resetLine := rfl
@[simp] theorem State.uncountRow_freeIndex (s : State) (c : ProductCode) : (s.uncountRow c).freeIndex = s.freeIndex := rfl
@[simp] theorem State.uncountRow_pending (s : State) (c : ProductCode) : (s.uncountRow c).pending = s.pending := rfl

/-! ### `State.writeRow` -/

@[simp] theorem State.writeRow_trunk (s : State) (k : Nat) (row : PassRow) : (s.writeRow k row).trunk = s.trunk := rfl
@[simp] theorem State.writeRow_routed (s : State) (k : Nat) (row : PassRow) : (s.writeRow k row).routed = s.routed := rfl
@[simp] theorem State.writeRow_arbiter (s : State) (k : Nat) (row : PassRow) : (s.writeRow k row).arbiter = s.arbiter := rfl
@[simp] theorem State.writeRow_products (s : State) (k : Nat) (row : PassRow) : (s.writeRow k row).products = s.products := rfl
@[simp] theorem State.writeRow_protection (s : State) (k : Nat) (row : PassRow) : (s.writeRow k row).protection = s.protection := rfl
@[simp] theorem State.writeRow_serviceKey (s : State) (k : Nat) (row : PassRow) : (s.writeRow k row).serviceKey = s.serviceKey := rfl
@[simp] theorem State.writeRow_calendar (s : State) (k : Nat) (row : PassRow) : (s.writeRow k row).calendar = s.calendar := rfl
@[simp] theorem State.writeRow_lanes (s : State) (k : Nat) (row : PassRow) : (s.writeRow k row).lanes = s.lanes := rfl
@[simp] theorem State.writeRow_lifts (s : State) (k : Nat) (row : PassRow) : (s.writeRow k row).lifts = s.lifts := rfl
@[simp] theorem State.writeRow_journal (s : State) (k : Nat) (row : PassRow) : (s.writeRow k row).journal = s.journal := rfl
@[simp] theorem State.writeRow_minimumPayout (s : State) (k : Nat) (row : PassRow) : (s.writeRow k row).minimumPayout = s.minimumPayout := rfl
@[simp] theorem State.writeRow_stream (s : State) (k : Nat) (row : PassRow) : (s.writeRow k row).stream = s.stream := rfl
@[simp] theorem State.writeRow_timebase (s : State) (k : Nat) (row : PassRow) : (s.writeRow k row).timebase = s.timebase := rfl
@[simp] theorem State.writeRow_resetLine (s : State) (k : Nat) (row : PassRow) : (s.writeRow k row).resetLine = s.resetLine := rfl
@[simp] theorem State.writeRow_freeIndex (s : State) (k : Nat) (row : PassRow) : (s.writeRow k row).freeIndex = s.freeIndex := rfl
@[simp] theorem State.writeRow_pending (s : State) (k : Nat) (row : PassRow) : (s.writeRow k row).pending = s.pending := rfl

/-! ### `State.insertRow` -/

@[simp] theorem State.insertRow_trunk (s : State) (k : Nat) (row : PassRow) : (s.insertRow k row).trunk = s.trunk := rfl
@[simp] theorem State.insertRow_routed (s : State) (k : Nat) (row : PassRow) : (s.insertRow k row).routed = s.routed := rfl
@[simp] theorem State.insertRow_arbiter (s : State) (k : Nat) (row : PassRow) : (s.insertRow k row).arbiter = s.arbiter := rfl
@[simp] theorem State.insertRow_protection (s : State) (k : Nat) (row : PassRow) : (s.insertRow k row).protection = s.protection := rfl
@[simp] theorem State.insertRow_serviceKey (s : State) (k : Nat) (row : PassRow) : (s.insertRow k row).serviceKey = s.serviceKey := rfl
@[simp] theorem State.insertRow_calendar (s : State) (k : Nat) (row : PassRow) : (s.insertRow k row).calendar = s.calendar := rfl
@[simp] theorem State.insertRow_lanes (s : State) (k : Nat) (row : PassRow) : (s.insertRow k row).lanes = s.lanes := rfl
@[simp] theorem State.insertRow_lifts (s : State) (k : Nat) (row : PassRow) : (s.insertRow k row).lifts = s.lifts := rfl
@[simp] theorem State.insertRow_journal (s : State) (k : Nat) (row : PassRow) : (s.insertRow k row).journal = s.journal := rfl
@[simp] theorem State.insertRow_minimumPayout (s : State) (k : Nat) (row : PassRow) : (s.insertRow k row).minimumPayout = s.minimumPayout := rfl
@[simp] theorem State.insertRow_stream (s : State) (k : Nat) (row : PassRow) : (s.insertRow k row).stream = s.stream := rfl
@[simp] theorem State.insertRow_timebase (s : State) (k : Nat) (row : PassRow) : (s.insertRow k row).timebase = s.timebase := rfl
@[simp] theorem State.insertRow_resetLine (s : State) (k : Nat) (row : PassRow) : (s.insertRow k row).resetLine = s.resetLine := rfl
@[simp] theorem State.insertRow_freeIndex (s : State) (k : Nat) (row : PassRow) : (s.insertRow k row).freeIndex = s.freeIndex := rfl
@[simp] theorem State.insertRow_pending (s : State) (k : Nat) (row : PassRow) : (s.insertRow k row).pending = s.pending := rfl

/-! ### `State.deleteRow` -/

@[simp] theorem State.deleteRow_trunk (s : State) (k : Nat) (row : PassRow) : (s.deleteRow k row).trunk = s.trunk := rfl
@[simp] theorem State.deleteRow_routed (s : State) (k : Nat) (row : PassRow) : (s.deleteRow k row).routed = s.routed := rfl
@[simp] theorem State.deleteRow_arbiter (s : State) (k : Nat) (row : PassRow) : (s.deleteRow k row).arbiter = s.arbiter := rfl
@[simp] theorem State.deleteRow_protection (s : State) (k : Nat) (row : PassRow) : (s.deleteRow k row).protection = s.protection := rfl
@[simp] theorem State.deleteRow_serviceKey (s : State) (k : Nat) (row : PassRow) : (s.deleteRow k row).serviceKey = s.serviceKey := rfl
@[simp] theorem State.deleteRow_calendar (s : State) (k : Nat) (row : PassRow) : (s.deleteRow k row).calendar = s.calendar := rfl
@[simp] theorem State.deleteRow_lanes (s : State) (k : Nat) (row : PassRow) : (s.deleteRow k row).lanes = s.lanes := rfl
@[simp] theorem State.deleteRow_lifts (s : State) (k : Nat) (row : PassRow) : (s.deleteRow k row).lifts = s.lifts := rfl
@[simp] theorem State.deleteRow_journal (s : State) (k : Nat) (row : PassRow) : (s.deleteRow k row).journal = s.journal := rfl
@[simp] theorem State.deleteRow_minimumPayout (s : State) (k : Nat) (row : PassRow) : (s.deleteRow k row).minimumPayout = s.minimumPayout := rfl
@[simp] theorem State.deleteRow_stream (s : State) (k : Nat) (row : PassRow) : (s.deleteRow k row).stream = s.stream := rfl
@[simp] theorem State.deleteRow_timebase (s : State) (k : Nat) (row : PassRow) : (s.deleteRow k row).timebase = s.timebase := rfl
@[simp] theorem State.deleteRow_resetLine (s : State) (k : Nat) (row : PassRow) : (s.deleteRow k row).resetLine = s.resetLine := rfl
@[simp] theorem State.deleteRow_freeIndex (s : State) (k : Nat) (row : PassRow) : (s.deleteRow k row).freeIndex = s.freeIndex := rfl
@[simp] theorem State.deleteRow_pending (s : State) (k : Nat) (row : PassRow) : (s.deleteRow k row).pending = s.pending := rfl

/-! ### `State.dropNextFor` -/

@[simp] theorem State.dropNextFor_trunk (s : State) (o : Owner) : (s.dropNextFor o).trunk = s.trunk := rfl
@[simp] theorem State.dropNextFor_table (s : State) (o : Owner) : (s.dropNextFor o).table = s.table := rfl
@[simp] theorem State.dropNextFor_arbiter (s : State) (o : Owner) : (s.dropNextFor o).arbiter = s.arbiter := rfl
@[simp] theorem State.dropNextFor_products (s : State) (o : Owner) : (s.dropNextFor o).products = s.products := rfl
@[simp] theorem State.dropNextFor_protection (s : State) (o : Owner) : (s.dropNextFor o).protection = s.protection := rfl
@[simp] theorem State.dropNextFor_serviceKey (s : State) (o : Owner) : (s.dropNextFor o).serviceKey = s.serviceKey := rfl
@[simp] theorem State.dropNextFor_calendar (s : State) (o : Owner) : (s.dropNextFor o).calendar = s.calendar := rfl
@[simp] theorem State.dropNextFor_lanes (s : State) (o : Owner) : (s.dropNextFor o).lanes = s.lanes := rfl
@[simp] theorem State.dropNextFor_lifts (s : State) (o : Owner) : (s.dropNextFor o).lifts = s.lifts := rfl
@[simp] theorem State.dropNextFor_journal (s : State) (o : Owner) : (s.dropNextFor o).journal = s.journal := rfl
@[simp] theorem State.dropNextFor_minimumPayout (s : State) (o : Owner) : (s.dropNextFor o).minimumPayout = s.minimumPayout := rfl
@[simp] theorem State.dropNextFor_stream (s : State) (o : Owner) : (s.dropNextFor o).stream = s.stream := rfl
@[simp] theorem State.dropNextFor_timebase (s : State) (o : Owner) : (s.dropNextFor o).timebase = s.timebase := rfl
@[simp] theorem State.dropNextFor_resetLine (s : State) (o : Owner) : (s.dropNextFor o).resetLine = s.resetLine := rfl
@[simp] theorem State.dropNextFor_freeIndex (s : State) (o : Owner) : (s.dropNextFor o).freeIndex = s.freeIndex := rfl
@[simp] theorem State.dropNextFor_pending (s : State) (o : Owner) : (s.dropNextFor o).pending = s.pending := rfl

/-! ### `State.granted` -/

@[simp] theorem State.granted_trunk (s : State) (r : Requester) : (s.granted r).trunk = s.trunk := rfl
@[simp] theorem State.granted_routed (s : State) (r : Requester) : (s.granted r).routed = s.routed := rfl
@[simp] theorem State.granted_table (s : State) (r : Requester) : (s.granted r).table = s.table := rfl
@[simp] theorem State.granted_products (s : State) (r : Requester) : (s.granted r).products = s.products := rfl
@[simp] theorem State.granted_protection (s : State) (r : Requester) : (s.granted r).protection = s.protection := rfl
@[simp] theorem State.granted_serviceKey (s : State) (r : Requester) : (s.granted r).serviceKey = s.serviceKey := rfl
@[simp] theorem State.granted_calendar (s : State) (r : Requester) : (s.granted r).calendar = s.calendar := rfl
@[simp] theorem State.granted_lanes (s : State) (r : Requester) : (s.granted r).lanes = s.lanes := rfl
@[simp] theorem State.granted_lifts (s : State) (r : Requester) : (s.granted r).lifts = s.lifts := rfl
@[simp] theorem State.granted_journal (s : State) (r : Requester) : (s.granted r).journal = s.journal := rfl
@[simp] theorem State.granted_minimumPayout (s : State) (r : Requester) : (s.granted r).minimumPayout = s.minimumPayout := rfl
@[simp] theorem State.granted_stream (s : State) (r : Requester) : (s.granted r).stream = s.stream := rfl
@[simp] theorem State.granted_timebase (s : State) (r : Requester) : (s.granted r).timebase = s.timebase := rfl
@[simp] theorem State.granted_resetLine (s : State) (r : Requester) : (s.granted r).resetLine = s.resetLine := rfl
@[simp] theorem State.granted_freeIndex (s : State) (r : Requester) : (s.granted r).freeIndex = s.freeIndex := rfl
@[simp] theorem State.granted_pending (s : State) (r : Requester) : (s.granted r).pending = s.pending := rfl

/-! ### `State.dropRowOp` -/

@[simp] theorem State.dropRowOp_trunk (s : State) (l : LaneNo) : (s.dropRowOp l).trunk = s.trunk := rfl
@[simp] theorem State.dropRowOp_routed (s : State) (l : LaneNo) : (s.dropRowOp l).routed = s.routed := rfl
@[simp] theorem State.dropRowOp_table (s : State) (l : LaneNo) : (s.dropRowOp l).table = s.table := rfl
@[simp] theorem State.dropRowOp_arbiter (s : State) (l : LaneNo) : (s.dropRowOp l).arbiter = s.arbiter := rfl
@[simp] theorem State.dropRowOp_products (s : State) (l : LaneNo) : (s.dropRowOp l).products = s.products := rfl
@[simp] theorem State.dropRowOp_protection (s : State) (l : LaneNo) : (s.dropRowOp l).protection = s.protection := rfl
@[simp] theorem State.dropRowOp_serviceKey (s : State) (l : LaneNo) : (s.dropRowOp l).serviceKey = s.serviceKey := rfl
@[simp] theorem State.dropRowOp_calendar (s : State) (l : LaneNo) : (s.dropRowOp l).calendar = s.calendar := rfl
@[simp] theorem State.dropRowOp_lifts (s : State) (l : LaneNo) : (s.dropRowOp l).lifts = s.lifts := rfl
@[simp] theorem State.dropRowOp_journal (s : State) (l : LaneNo) : (s.dropRowOp l).journal = s.journal := rfl
@[simp] theorem State.dropRowOp_minimumPayout (s : State) (l : LaneNo) : (s.dropRowOp l).minimumPayout = s.minimumPayout := rfl
@[simp] theorem State.dropRowOp_stream (s : State) (l : LaneNo) : (s.dropRowOp l).stream = s.stream := rfl
@[simp] theorem State.dropRowOp_timebase (s : State) (l : LaneNo) : (s.dropRowOp l).timebase = s.timebase := rfl
@[simp] theorem State.dropRowOp_resetLine (s : State) (l : LaneNo) : (s.dropRowOp l).resetLine = s.resetLine := rfl
@[simp] theorem State.dropRowOp_freeIndex (s : State) (l : LaneNo) : (s.dropRowOp l).freeIndex = s.freeIndex := rfl
@[simp] theorem State.dropRowOp_pending (s : State) (l : LaneNo) : (s.dropRowOp l).pending = s.pending := rfl

/-! ### `State.streamHeard` -/

@[simp] theorem State.streamHeard_trunk (s : State)  : (s.streamHeard).trunk = s.trunk := rfl
@[simp] theorem State.streamHeard_routed (s : State)  : (s.streamHeard).routed = s.routed := rfl
@[simp] theorem State.streamHeard_table (s : State)  : (s.streamHeard).table = s.table := rfl
@[simp] theorem State.streamHeard_arbiter (s : State)  : (s.streamHeard).arbiter = s.arbiter := rfl
@[simp] theorem State.streamHeard_products (s : State)  : (s.streamHeard).products = s.products := rfl
@[simp] theorem State.streamHeard_protection (s : State)  : (s.streamHeard).protection = s.protection := rfl
@[simp] theorem State.streamHeard_serviceKey (s : State)  : (s.streamHeard).serviceKey = s.serviceKey := rfl
@[simp] theorem State.streamHeard_calendar (s : State)  : (s.streamHeard).calendar = s.calendar := rfl
@[simp] theorem State.streamHeard_lanes (s : State)  : (s.streamHeard).lanes = s.lanes := rfl
@[simp] theorem State.streamHeard_lifts (s : State)  : (s.streamHeard).lifts = s.lifts := rfl
@[simp] theorem State.streamHeard_journal (s : State)  : (s.streamHeard).journal = s.journal := rfl
@[simp] theorem State.streamHeard_minimumPayout (s : State)  : (s.streamHeard).minimumPayout = s.minimumPayout := rfl
@[simp] theorem State.streamHeard_timebase (s : State)  : (s.streamHeard).timebase = s.timebase := rfl
@[simp] theorem State.streamHeard_resetLine (s : State)  : (s.streamHeard).resetLine = s.resetLine := rfl
@[simp] theorem State.streamHeard_freeIndex (s : State)  : (s.streamHeard).freeIndex = s.freeIndex := rfl
@[simp] theorem State.streamHeard_pending (s : State)  : (s.streamHeard).pending = s.pending := rfl

/-! ### `State.handCancellation` -/

@[simp] theorem State.handCancellation_trunk (s : State) (l : LaneNo) (u : Uid) : (s.handCancellation l u).trunk = s.trunk := rfl
@[simp] theorem State.handCancellation_routed (s : State) (l : LaneNo) (u : Uid) : (s.handCancellation l u).routed = s.routed := rfl
@[simp] theorem State.handCancellation_arbiter (s : State) (l : LaneNo) (u : Uid) : (s.handCancellation l u).arbiter = s.arbiter := rfl
@[simp] theorem State.handCancellation_products (s : State) (l : LaneNo) (u : Uid) : (s.handCancellation l u).products = s.products := rfl
@[simp] theorem State.handCancellation_protection (s : State) (l : LaneNo) (u : Uid) : (s.handCancellation l u).protection = s.protection := rfl
@[simp] theorem State.handCancellation_serviceKey (s : State) (l : LaneNo) (u : Uid) : (s.handCancellation l u).serviceKey = s.serviceKey := rfl
@[simp] theorem State.handCancellation_calendar (s : State) (l : LaneNo) (u : Uid) : (s.handCancellation l u).calendar = s.calendar := rfl
@[simp] theorem State.handCancellation_lanes (s : State) (l : LaneNo) (u : Uid) : (s.handCancellation l u).lanes = s.lanes := rfl
@[simp] theorem State.handCancellation_lifts (s : State) (l : LaneNo) (u : Uid) : (s.handCancellation l u).lifts = s.lifts := rfl
@[simp] theorem State.handCancellation_journal (s : State) (l : LaneNo) (u : Uid) : (s.handCancellation l u).journal = s.journal := rfl
@[simp] theorem State.handCancellation_minimumPayout (s : State) (l : LaneNo) (u : Uid) : (s.handCancellation l u).minimumPayout = s.minimumPayout := rfl
@[simp] theorem State.handCancellation_stream (s : State) (l : LaneNo) (u : Uid) : (s.handCancellation l u).stream = s.stream := rfl
@[simp] theorem State.handCancellation_timebase (s : State) (l : LaneNo) (u : Uid) : (s.handCancellation l u).timebase = s.timebase := rfl
@[simp] theorem State.handCancellation_resetLine (s : State) (l : LaneNo) (u : Uid) : (s.handCancellation l u).resetLine = s.resetLine := rfl
@[simp] theorem State.handCancellation_freeIndex (s : State) (l : LaneNo) (u : Uid) : (s.handCancellation l u).freeIndex = s.freeIndex := rfl
@[simp] theorem State.handCancellation_pending (s : State) (l : LaneNo) (u : Uid) : (s.handCancellation l u).pending = s.pending := rfl

/-! ### `State.handPassage` -/

@[simp] theorem State.handPassage_trunk (s : State) (r : RecordBody) : (s.handPassage r).trunk = s.trunk := rfl
@[simp] theorem State.handPassage_routed (s : State) (r : RecordBody) : (s.handPassage r).routed = s.routed := rfl
@[simp] theorem State.handPassage_arbiter (s : State) (r : RecordBody) : (s.handPassage r).arbiter = s.arbiter := rfl
@[simp] theorem State.handPassage_products (s : State) (r : RecordBody) : (s.handPassage r).products = s.products := rfl
@[simp] theorem State.handPassage_protection (s : State) (r : RecordBody) : (s.handPassage r).protection = s.protection := rfl
@[simp] theorem State.handPassage_serviceKey (s : State) (r : RecordBody) : (s.handPassage r).serviceKey = s.serviceKey := rfl
@[simp] theorem State.handPassage_calendar (s : State) (r : RecordBody) : (s.handPassage r).calendar = s.calendar := rfl
@[simp] theorem State.handPassage_lanes (s : State) (r : RecordBody) : (s.handPassage r).lanes = s.lanes := rfl
@[simp] theorem State.handPassage_lifts (s : State) (r : RecordBody) : (s.handPassage r).lifts = s.lifts := rfl
@[simp] theorem State.handPassage_journal (s : State) (r : RecordBody) : (s.handPassage r).journal = s.journal := rfl
@[simp] theorem State.handPassage_minimumPayout (s : State) (r : RecordBody) : (s.handPassage r).minimumPayout = s.minimumPayout := rfl
@[simp] theorem State.handPassage_stream (s : State) (r : RecordBody) : (s.handPassage r).stream = s.stream := rfl
@[simp] theorem State.handPassage_timebase (s : State) (r : RecordBody) : (s.handPassage r).timebase = s.timebase := rfl
@[simp] theorem State.handPassage_resetLine (s : State) (r : RecordBody) : (s.handPassage r).resetLine = s.resetLine := rfl
@[simp] theorem State.handPassage_freeIndex (s : State) (r : RecordBody) : (s.handPassage r).freeIndex = s.freeIndex := rfl
@[simp] theorem State.handPassage_pending (s : State) (r : RecordBody) : (s.handPassage r).pending = s.pending := rfl

/-! ### `State.raiseOverconsumed` -/

@[simp] theorem State.raiseOverconsumed_trunk (s : State) (u : Uid) (d : Nat) : (s.raiseOverconsumed u d).trunk = s.trunk := rfl
@[simp] theorem State.raiseOverconsumed_routed (s : State) (u : Uid) (d : Nat) : (s.raiseOverconsumed u d).routed = s.routed := rfl
@[simp] theorem State.raiseOverconsumed_arbiter (s : State) (u : Uid) (d : Nat) : (s.raiseOverconsumed u d).arbiter = s.arbiter := rfl
@[simp] theorem State.raiseOverconsumed_products (s : State) (u : Uid) (d : Nat) : (s.raiseOverconsumed u d).products = s.products := rfl
@[simp] theorem State.raiseOverconsumed_protection (s : State) (u : Uid) (d : Nat) : (s.raiseOverconsumed u d).protection = s.protection := rfl
@[simp] theorem State.raiseOverconsumed_serviceKey (s : State) (u : Uid) (d : Nat) : (s.raiseOverconsumed u d).serviceKey = s.serviceKey := rfl
@[simp] theorem State.raiseOverconsumed_calendar (s : State) (u : Uid) (d : Nat) : (s.raiseOverconsumed u d).calendar = s.calendar := rfl
@[simp] theorem State.raiseOverconsumed_lanes (s : State) (u : Uid) (d : Nat) : (s.raiseOverconsumed u d).lanes = s.lanes := rfl
@[simp] theorem State.raiseOverconsumed_lifts (s : State) (u : Uid) (d : Nat) : (s.raiseOverconsumed u d).lifts = s.lifts := rfl
@[simp] theorem State.raiseOverconsumed_journal (s : State) (u : Uid) (d : Nat) : (s.raiseOverconsumed u d).journal = s.journal := rfl
@[simp] theorem State.raiseOverconsumed_minimumPayout (s : State) (u : Uid) (d : Nat) : (s.raiseOverconsumed u d).minimumPayout = s.minimumPayout := rfl
@[simp] theorem State.raiseOverconsumed_stream (s : State) (u : Uid) (d : Nat) : (s.raiseOverconsumed u d).stream = s.stream := rfl
@[simp] theorem State.raiseOverconsumed_timebase (s : State) (u : Uid) (d : Nat) : (s.raiseOverconsumed u d).timebase = s.timebase := rfl
@[simp] theorem State.raiseOverconsumed_resetLine (s : State) (u : Uid) (d : Nat) : (s.raiseOverconsumed u d).resetLine = s.resetLine := rfl
@[simp] theorem State.raiseOverconsumed_freeIndex (s : State) (u : Uid) (d : Nat) : (s.raiseOverconsumed u d).freeIndex = s.freeIndex := rfl
@[simp] theorem State.raiseOverconsumed_pending (s : State) (u : Uid) (d : Nat) : (s.raiseOverconsumed u d).pending = s.pending := rfl

/-! ### `State.latchRaise` -/

@[simp] theorem State.latchRaise_routed (s : State) (r : Raise) : (s.latchRaise r).routed = s.routed := rfl
@[simp] theorem State.latchRaise_table (s : State) (r : Raise) : (s.latchRaise r).table = s.table := rfl
@[simp] theorem State.latchRaise_arbiter (s : State) (r : Raise) : (s.latchRaise r).arbiter = s.arbiter := rfl
@[simp] theorem State.latchRaise_products (s : State) (r : Raise) : (s.latchRaise r).products = s.products := rfl
@[simp] theorem State.latchRaise_protection (s : State) (r : Raise) : (s.latchRaise r).protection = s.protection := rfl
@[simp] theorem State.latchRaise_serviceKey (s : State) (r : Raise) : (s.latchRaise r).serviceKey = s.serviceKey := rfl
@[simp] theorem State.latchRaise_calendar (s : State) (r : Raise) : (s.latchRaise r).calendar = s.calendar := rfl
@[simp] theorem State.latchRaise_lanes (s : State) (r : Raise) : (s.latchRaise r).lanes = s.lanes := rfl
@[simp] theorem State.latchRaise_lifts (s : State) (r : Raise) : (s.latchRaise r).lifts = s.lifts := rfl
@[simp] theorem State.latchRaise_journal (s : State) (r : Raise) : (s.latchRaise r).journal = s.journal := rfl
@[simp] theorem State.latchRaise_minimumPayout (s : State) (r : Raise) : (s.latchRaise r).minimumPayout = s.minimumPayout := rfl
@[simp] theorem State.latchRaise_stream (s : State) (r : Raise) : (s.latchRaise r).stream = s.stream := rfl
@[simp] theorem State.latchRaise_timebase (s : State) (r : Raise) : (s.latchRaise r).timebase = s.timebase := rfl
@[simp] theorem State.latchRaise_resetLine (s : State) (r : Raise) : (s.latchRaise r).resetLine = s.resetLine := rfl
@[simp] theorem State.latchRaise_freeIndex (s : State) (r : Raise) : (s.latchRaise r).freeIndex = s.freeIndex := rfl
@[simp] theorem State.latchRaise_pending (s : State) (r : Raise) : (s.latchRaise r).pending = s.pending := rfl

/-! ### `State.dropDayChange` -/

@[simp] theorem State.dropDayChange_trunk (s : State) (l : LaneNo) : (s.dropDayChange l).trunk = s.trunk := rfl
@[simp] theorem State.dropDayChange_routed (s : State) (l : LaneNo) : (s.dropDayChange l).routed = s.routed := rfl
@[simp] theorem State.dropDayChange_table (s : State) (l : LaneNo) : (s.dropDayChange l).table = s.table := rfl
@[simp] theorem State.dropDayChange_arbiter (s : State) (l : LaneNo) : (s.dropDayChange l).arbiter = s.arbiter := rfl
@[simp] theorem State.dropDayChange_products (s : State) (l : LaneNo) : (s.dropDayChange l).products = s.products := rfl
@[simp] theorem State.dropDayChange_protection (s : State) (l : LaneNo) : (s.dropDayChange l).protection = s.protection := rfl
@[simp] theorem State.dropDayChange_serviceKey (s : State) (l : LaneNo) : (s.dropDayChange l).serviceKey = s.serviceKey := rfl
@[simp] theorem State.dropDayChange_lanes (s : State) (l : LaneNo) : (s.dropDayChange l).lanes = s.lanes := rfl
@[simp] theorem State.dropDayChange_lifts (s : State) (l : LaneNo) : (s.dropDayChange l).lifts = s.lifts := rfl
@[simp] theorem State.dropDayChange_journal (s : State) (l : LaneNo) : (s.dropDayChange l).journal = s.journal := rfl
@[simp] theorem State.dropDayChange_minimumPayout (s : State) (l : LaneNo) : (s.dropDayChange l).minimumPayout = s.minimumPayout := rfl
@[simp] theorem State.dropDayChange_stream (s : State) (l : LaneNo) : (s.dropDayChange l).stream = s.stream := rfl
@[simp] theorem State.dropDayChange_timebase (s : State) (l : LaneNo) : (s.dropDayChange l).timebase = s.timebase := rfl
@[simp] theorem State.dropDayChange_resetLine (s : State) (l : LaneNo) : (s.dropDayChange l).resetLine = s.resetLine := rfl
@[simp] theorem State.dropDayChange_freeIndex (s : State) (l : LaneNo) : (s.dropDayChange l).freeIndex = s.freeIndex := rfl
@[simp] theorem State.dropDayChange_pending (s : State) (l : LaneNo) : (s.dropDayChange l).pending = s.pending := rfl

/-! ### `State.dropAnswer` -/

@[simp] theorem State.dropAnswer_trunk (s : State) (l : LaneNo) (i : LiftNo) : (s.dropAnswer l i).trunk = s.trunk := rfl
@[simp] theorem State.dropAnswer_routed (s : State) (l : LaneNo) (i : LiftNo) : (s.dropAnswer l i).routed = s.routed := rfl
@[simp] theorem State.dropAnswer_table (s : State) (l : LaneNo) (i : LiftNo) : (s.dropAnswer l i).table = s.table := rfl
@[simp] theorem State.dropAnswer_arbiter (s : State) (l : LaneNo) (i : LiftNo) : (s.dropAnswer l i).arbiter = s.arbiter := rfl
@[simp] theorem State.dropAnswer_products (s : State) (l : LaneNo) (i : LiftNo) : (s.dropAnswer l i).products = s.products := rfl
@[simp] theorem State.dropAnswer_protection (s : State) (l : LaneNo) (i : LiftNo) : (s.dropAnswer l i).protection = s.protection := rfl
@[simp] theorem State.dropAnswer_serviceKey (s : State) (l : LaneNo) (i : LiftNo) : (s.dropAnswer l i).serviceKey = s.serviceKey := rfl
@[simp] theorem State.dropAnswer_calendar (s : State) (l : LaneNo) (i : LiftNo) : (s.dropAnswer l i).calendar = s.calendar := rfl
@[simp] theorem State.dropAnswer_lanes (s : State) (l : LaneNo) (i : LiftNo) : (s.dropAnswer l i).lanes = s.lanes := rfl
@[simp] theorem State.dropAnswer_journal (s : State) (l : LaneNo) (i : LiftNo) : (s.dropAnswer l i).journal = s.journal := rfl
@[simp] theorem State.dropAnswer_minimumPayout (s : State) (l : LaneNo) (i : LiftNo) : (s.dropAnswer l i).minimumPayout = s.minimumPayout := rfl
@[simp] theorem State.dropAnswer_stream (s : State) (l : LaneNo) (i : LiftNo) : (s.dropAnswer l i).stream = s.stream := rfl
@[simp] theorem State.dropAnswer_timebase (s : State) (l : LaneNo) (i : LiftNo) : (s.dropAnswer l i).timebase = s.timebase := rfl
@[simp] theorem State.dropAnswer_resetLine (s : State) (l : LaneNo) (i : LiftNo) : (s.dropAnswer l i).resetLine = s.resetLine := rfl
@[simp] theorem State.dropAnswer_freeIndex (s : State) (l : LaneNo) (i : LiftNo) : (s.dropAnswer l i).freeIndex = s.freeIndex := rfl
@[simp] theorem State.dropAnswer_pending (s : State) (l : LaneNo) (i : LiftNo) : (s.dropAnswer l i).pending = s.pending := rfl

/-! ### `State.dropChange` -/

@[simp] theorem State.dropChange_trunk (s : State) (l : LaneNo) (i : LiftNo) : (s.dropChange l i).trunk = s.trunk := rfl
@[simp] theorem State.dropChange_routed (s : State) (l : LaneNo) (i : LiftNo) : (s.dropChange l i).routed = s.routed := rfl
@[simp] theorem State.dropChange_table (s : State) (l : LaneNo) (i : LiftNo) : (s.dropChange l i).table = s.table := rfl
@[simp] theorem State.dropChange_arbiter (s : State) (l : LaneNo) (i : LiftNo) : (s.dropChange l i).arbiter = s.arbiter := rfl
@[simp] theorem State.dropChange_products (s : State) (l : LaneNo) (i : LiftNo) : (s.dropChange l i).products = s.products := rfl
@[simp] theorem State.dropChange_protection (s : State) (l : LaneNo) (i : LiftNo) : (s.dropChange l i).protection = s.protection := rfl
@[simp] theorem State.dropChange_serviceKey (s : State) (l : LaneNo) (i : LiftNo) : (s.dropChange l i).serviceKey = s.serviceKey := rfl
@[simp] theorem State.dropChange_calendar (s : State) (l : LaneNo) (i : LiftNo) : (s.dropChange l i).calendar = s.calendar := rfl
@[simp] theorem State.dropChange_lanes (s : State) (l : LaneNo) (i : LiftNo) : (s.dropChange l i).lanes = s.lanes := rfl
@[simp] theorem State.dropChange_journal (s : State) (l : LaneNo) (i : LiftNo) : (s.dropChange l i).journal = s.journal := rfl
@[simp] theorem State.dropChange_minimumPayout (s : State) (l : LaneNo) (i : LiftNo) : (s.dropChange l i).minimumPayout = s.minimumPayout := rfl
@[simp] theorem State.dropChange_stream (s : State) (l : LaneNo) (i : LiftNo) : (s.dropChange l i).stream = s.stream := rfl
@[simp] theorem State.dropChange_timebase (s : State) (l : LaneNo) (i : LiftNo) : (s.dropChange l i).timebase = s.timebase := rfl
@[simp] theorem State.dropChange_resetLine (s : State) (l : LaneNo) (i : LiftNo) : (s.dropChange l i).resetLine = s.resetLine := rfl
@[simp] theorem State.dropChange_freeIndex (s : State) (l : LaneNo) (i : LiftNo) : (s.dropChange l i).freeIndex = s.freeIndex := rfl
@[simp] theorem State.dropChange_pending (s : State) (l : LaneNo) (i : LiftNo) : (s.dropChange l i).pending = s.pending := rfl

/-! ### `State.laneEvent` -/

@[simp] theorem State.laneEvent_trunk (s : State) (l : LaneNo) (f : LaneEnv → Lane → Lane) : (s.laneEvent l f).trunk = s.trunk := rfl
@[simp] theorem State.laneEvent_routed (s : State) (l : LaneNo) (f : LaneEnv → Lane → Lane) : (s.laneEvent l f).routed = s.routed := rfl
@[simp] theorem State.laneEvent_table (s : State) (l : LaneNo) (f : LaneEnv → Lane → Lane) : (s.laneEvent l f).table = s.table := rfl
@[simp] theorem State.laneEvent_arbiter (s : State) (l : LaneNo) (f : LaneEnv → Lane → Lane) : (s.laneEvent l f).arbiter = s.arbiter := rfl
@[simp] theorem State.laneEvent_products (s : State) (l : LaneNo) (f : LaneEnv → Lane → Lane) : (s.laneEvent l f).products = s.products := rfl
@[simp] theorem State.laneEvent_protection (s : State) (l : LaneNo) (f : LaneEnv → Lane → Lane) : (s.laneEvent l f).protection = s.protection := rfl
@[simp] theorem State.laneEvent_serviceKey (s : State) (l : LaneNo) (f : LaneEnv → Lane → Lane) : (s.laneEvent l f).serviceKey = s.serviceKey := rfl
@[simp] theorem State.laneEvent_calendar (s : State) (l : LaneNo) (f : LaneEnv → Lane → Lane) : (s.laneEvent l f).calendar = s.calendar := rfl
@[simp] theorem State.laneEvent_lifts (s : State) (l : LaneNo) (f : LaneEnv → Lane → Lane) : (s.laneEvent l f).lifts = s.lifts := rfl
@[simp] theorem State.laneEvent_journal (s : State) (l : LaneNo) (f : LaneEnv → Lane → Lane) : (s.laneEvent l f).journal = s.journal := rfl
@[simp] theorem State.laneEvent_minimumPayout (s : State) (l : LaneNo) (f : LaneEnv → Lane → Lane) : (s.laneEvent l f).minimumPayout = s.minimumPayout := rfl
@[simp] theorem State.laneEvent_stream (s : State) (l : LaneNo) (f : LaneEnv → Lane → Lane) : (s.laneEvent l f).stream = s.stream := rfl
@[simp] theorem State.laneEvent_timebase (s : State) (l : LaneNo) (f : LaneEnv → Lane → Lane) : (s.laneEvent l f).timebase = s.timebase := rfl
@[simp] theorem State.laneEvent_resetLine (s : State) (l : LaneNo) (f : LaneEnv → Lane → Lane) : (s.laneEvent l f).resetLine = s.resetLine := rfl
@[simp] theorem State.laneEvent_freeIndex (s : State) (l : LaneNo) (f : LaneEnv → Lane → Lane) : (s.laneEvent l f).freeIndex = s.freeIndex := rfl
@[simp] theorem State.laneEvent_pending (s : State) (l : LaneNo) (f : LaneEnv → Lane → Lane) : (s.laneEvent l f).pending = s.pending := rfl

/-! ### `State.dropFrame` -/

@[simp] theorem State.dropFrame_trunk (s : State) (l : LaneNo) : (s.dropFrame l).trunk = s.trunk := rfl
@[simp] theorem State.dropFrame_routed (s : State) (l : LaneNo) : (s.dropFrame l).routed = s.routed := rfl
@[simp] theorem State.dropFrame_table (s : State) (l : LaneNo) : (s.dropFrame l).table = s.table := rfl
@[simp] theorem State.dropFrame_arbiter (s : State) (l : LaneNo) : (s.dropFrame l).arbiter = s.arbiter := rfl
@[simp] theorem State.dropFrame_products (s : State) (l : LaneNo) : (s.dropFrame l).products = s.products := rfl
@[simp] theorem State.dropFrame_protection (s : State) (l : LaneNo) : (s.dropFrame l).protection = s.protection := rfl
@[simp] theorem State.dropFrame_serviceKey (s : State) (l : LaneNo) : (s.dropFrame l).serviceKey = s.serviceKey := rfl
@[simp] theorem State.dropFrame_calendar (s : State) (l : LaneNo) : (s.dropFrame l).calendar = s.calendar := rfl
@[simp] theorem State.dropFrame_lifts (s : State) (l : LaneNo) : (s.dropFrame l).lifts = s.lifts := rfl
@[simp] theorem State.dropFrame_journal (s : State) (l : LaneNo) : (s.dropFrame l).journal = s.journal := rfl
@[simp] theorem State.dropFrame_minimumPayout (s : State) (l : LaneNo) : (s.dropFrame l).minimumPayout = s.minimumPayout := rfl
@[simp] theorem State.dropFrame_stream (s : State) (l : LaneNo) : (s.dropFrame l).stream = s.stream := rfl
@[simp] theorem State.dropFrame_timebase (s : State) (l : LaneNo) : (s.dropFrame l).timebase = s.timebase := rfl
@[simp] theorem State.dropFrame_resetLine (s : State) (l : LaneNo) : (s.dropFrame l).resetLine = s.resetLine := rfl
@[simp] theorem State.dropFrame_freeIndex (s : State) (l : LaneNo) : (s.dropFrame l).freeIndex = s.freeIndex := rfl
@[simp] theorem State.dropFrame_pending (s : State) (l : LaneNo) : (s.dropFrame l).pending = s.pending := rfl

/-! ### `State.liftTakes` -/

@[simp] theorem State.liftTakes_trunk (s : State) (l : LaneNo) (i : LiftNo) (y : Lift) : (s.liftTakes l i y).trunk = s.trunk := rfl
@[simp] theorem State.liftTakes_routed (s : State) (l : LaneNo) (i : LiftNo) (y : Lift) : (s.liftTakes l i y).routed = s.routed := rfl
@[simp] theorem State.liftTakes_table (s : State) (l : LaneNo) (i : LiftNo) (y : Lift) : (s.liftTakes l i y).table = s.table := rfl
@[simp] theorem State.liftTakes_arbiter (s : State) (l : LaneNo) (i : LiftNo) (y : Lift) : (s.liftTakes l i y).arbiter = s.arbiter := rfl
@[simp] theorem State.liftTakes_products (s : State) (l : LaneNo) (i : LiftNo) (y : Lift) : (s.liftTakes l i y).products = s.products := rfl
@[simp] theorem State.liftTakes_protection (s : State) (l : LaneNo) (i : LiftNo) (y : Lift) : (s.liftTakes l i y).protection = s.protection := rfl
@[simp] theorem State.liftTakes_serviceKey (s : State) (l : LaneNo) (i : LiftNo) (y : Lift) : (s.liftTakes l i y).serviceKey = s.serviceKey := rfl
@[simp] theorem State.liftTakes_calendar (s : State) (l : LaneNo) (i : LiftNo) (y : Lift) : (s.liftTakes l i y).calendar = s.calendar := rfl
@[simp] theorem State.liftTakes_journal (s : State) (l : LaneNo) (i : LiftNo) (y : Lift) : (s.liftTakes l i y).journal = s.journal := rfl
@[simp] theorem State.liftTakes_minimumPayout (s : State) (l : LaneNo) (i : LiftNo) (y : Lift) : (s.liftTakes l i y).minimumPayout = s.minimumPayout := rfl
@[simp] theorem State.liftTakes_stream (s : State) (l : LaneNo) (i : LiftNo) (y : Lift) : (s.liftTakes l i y).stream = s.stream := rfl
@[simp] theorem State.liftTakes_timebase (s : State) (l : LaneNo) (i : LiftNo) (y : Lift) : (s.liftTakes l i y).timebase = s.timebase := rfl
@[simp] theorem State.liftTakes_resetLine (s : State) (l : LaneNo) (i : LiftNo) (y : Lift) : (s.liftTakes l i y).resetLine = s.resetLine := rfl
@[simp] theorem State.liftTakes_freeIndex (s : State) (l : LaneNo) (i : LiftNo) (y : Lift) : (s.liftTakes l i y).freeIndex = s.freeIndex := rfl
@[simp] theorem State.liftTakes_pending (s : State) (l : LaneNo) (i : LiftNo) (y : Lift) : (s.liftTakes l i y).pending = s.pending := rfl

/-! ### `State.answer` -/

@[simp] theorem State.answer_routed (s : State) (p : Option Nat) (c : ReplyCode) (fs : List Byte) : (s.answer p c fs).routed = s.routed := by
  cases p <;> rfl
@[simp] theorem State.answer_table (s : State) (p : Option Nat) (c : ReplyCode) (fs : List Byte) : (s.answer p c fs).table = s.table := by
  cases p <;> rfl
@[simp] theorem State.answer_arbiter (s : State) (p : Option Nat) (c : ReplyCode) (fs : List Byte) : (s.answer p c fs).arbiter = s.arbiter := by
  cases p <;> rfl
@[simp] theorem State.answer_products (s : State) (p : Option Nat) (c : ReplyCode) (fs : List Byte) : (s.answer p c fs).products = s.products := by
  cases p <;> rfl
@[simp] theorem State.answer_protection (s : State) (p : Option Nat) (c : ReplyCode) (fs : List Byte) : (s.answer p c fs).protection = s.protection := by
  cases p <;> rfl
@[simp] theorem State.answer_serviceKey (s : State) (p : Option Nat) (c : ReplyCode) (fs : List Byte) : (s.answer p c fs).serviceKey = s.serviceKey := by
  cases p <;> rfl
@[simp] theorem State.answer_calendar (s : State) (p : Option Nat) (c : ReplyCode) (fs : List Byte) : (s.answer p c fs).calendar = s.calendar := by
  cases p <;> rfl
@[simp] theorem State.answer_lanes (s : State) (p : Option Nat) (c : ReplyCode) (fs : List Byte) : (s.answer p c fs).lanes = s.lanes := by
  cases p <;> rfl
@[simp] theorem State.answer_lifts (s : State) (p : Option Nat) (c : ReplyCode) (fs : List Byte) : (s.answer p c fs).lifts = s.lifts := by
  cases p <;> rfl
@[simp] theorem State.answer_journal (s : State) (p : Option Nat) (c : ReplyCode) (fs : List Byte) : (s.answer p c fs).journal = s.journal := by
  cases p <;> rfl
@[simp] theorem State.answer_minimumPayout (s : State) (p : Option Nat) (c : ReplyCode) (fs : List Byte) : (s.answer p c fs).minimumPayout = s.minimumPayout := by
  cases p <;> rfl
@[simp] theorem State.answer_stream (s : State) (p : Option Nat) (c : ReplyCode) (fs : List Byte) : (s.answer p c fs).stream = s.stream := by
  cases p <;> rfl
@[simp] theorem State.answer_timebase (s : State) (p : Option Nat) (c : ReplyCode) (fs : List Byte) : (s.answer p c fs).timebase = s.timebase := by
  cases p <;> rfl
@[simp] theorem State.answer_resetLine (s : State) (p : Option Nat) (c : ReplyCode) (fs : List Byte) : (s.answer p c fs).resetLine = s.resetLine := by
  cases p <;> rfl
@[simp] theorem State.answer_freeIndex (s : State) (p : Option Nat) (c : ReplyCode) (fs : List Byte) : (s.answer p c fs).freeIndex = s.freeIndex := by
  cases p <;> rfl
@[simp] theorem State.answer_pending (s : State) (p : Option Nat) (c : ReplyCode) (fs : List Byte) : (s.answer p c fs).pending = s.pending := by
  cases p <;> rfl

/-! ### `State.jointAnswer` -/

@[simp] theorem State.jointAnswer_routed (s : State) (p : Option Nat) (a b : Bool) (g : Settings → Settings) : (s.jointAnswer p a b g).routed = s.routed := by
  cases p <;> rfl
@[simp] theorem State.jointAnswer_table (s : State) (p : Option Nat) (a b : Bool) (g : Settings → Settings) : (s.jointAnswer p a b g).table = s.table := by
  cases p <;> rfl
@[simp] theorem State.jointAnswer_arbiter (s : State) (p : Option Nat) (a b : Bool) (g : Settings → Settings) : (s.jointAnswer p a b g).arbiter = s.arbiter := by
  cases p <;> rfl
@[simp] theorem State.jointAnswer_products (s : State) (p : Option Nat) (a b : Bool) (g : Settings → Settings) : (s.jointAnswer p a b g).products = s.products := by
  cases p <;> rfl
@[simp] theorem State.jointAnswer_protection (s : State) (p : Option Nat) (a b : Bool) (g : Settings → Settings) : (s.jointAnswer p a b g).protection = s.protection := by
  cases p <;> rfl
@[simp] theorem State.jointAnswer_serviceKey (s : State) (p : Option Nat) (a b : Bool) (g : Settings → Settings) : (s.jointAnswer p a b g).serviceKey = s.serviceKey := by
  cases p <;> rfl
@[simp] theorem State.jointAnswer_calendar (s : State) (p : Option Nat) (a b : Bool) (g : Settings → Settings) : (s.jointAnswer p a b g).calendar = s.calendar := by
  cases p <;> rfl
@[simp] theorem State.jointAnswer_lanes (s : State) (p : Option Nat) (a b : Bool) (g : Settings → Settings) : (s.jointAnswer p a b g).lanes = s.lanes := by
  cases p <;> rfl
@[simp] theorem State.jointAnswer_lifts (s : State) (p : Option Nat) (a b : Bool) (g : Settings → Settings) : (s.jointAnswer p a b g).lifts = s.lifts := by
  cases p <;> rfl
@[simp] theorem State.jointAnswer_journal (s : State) (p : Option Nat) (a b : Bool) (g : Settings → Settings) : (s.jointAnswer p a b g).journal = s.journal := by
  cases p <;> rfl
@[simp] theorem State.jointAnswer_minimumPayout (s : State) (p : Option Nat) (a b : Bool) (g : Settings → Settings) : (s.jointAnswer p a b g).minimumPayout = s.minimumPayout := by
  cases p <;> rfl
@[simp] theorem State.jointAnswer_stream (s : State) (p : Option Nat) (a b : Bool) (g : Settings → Settings) : (s.jointAnswer p a b g).stream = s.stream := by
  cases p <;> rfl
@[simp] theorem State.jointAnswer_timebase (s : State) (p : Option Nat) (a b : Bool) (g : Settings → Settings) : (s.jointAnswer p a b g).timebase = s.timebase := by
  cases p <;> rfl
@[simp] theorem State.jointAnswer_resetLine (s : State) (p : Option Nat) (a b : Bool) (g : Settings → Settings) : (s.jointAnswer p a b g).resetLine = s.resetLine := by
  cases p <;> rfl
@[simp] theorem State.jointAnswer_freeIndex (s : State) (p : Option Nat) (a b : Bool) (g : Settings → Settings) : (s.jointAnswer p a b g).freeIndex = s.freeIndex := by
  cases p <;> rfl
@[simp] theorem State.jointAnswer_pending (s : State) (p : Option Nat) (a b : Bool) (g : Settings → Settings) : (s.jointAnswer p a b g).pending = s.pending := by
  cases p <;> rfl

/-! ### What a reply leaves of the trunk port -/

@[simp] theorem TrunkPort.fill_partStatus (t : TrunkPort) (n : Nat) (c : ReplyCode) (fs : List Byte) : (t.fill n c fs).partStatus = t.partStatus := by
  simp only [TrunkPort.fill]; split <;> rfl

@[simp] theorem TrunkPort.jointAnswer_partStatus (t : TrunkPort) (n : Nat) (a b : Bool) (g : Settings → Settings) : (t.jointAnswer n a b g).partStatus = t.partStatus := by
  simp only [TrunkPort.jointAnswer]; split
  · rfl
  · split <;> rfl

@[simp] theorem State.answer_trunk_partStatus (s : State) (p : Option Nat) (c : ReplyCode) (fs : List Byte) : (s.answer p c fs).trunk.partStatus = s.trunk.partStatus := by
  cases p <;> simp [State.answer]

@[simp] theorem State.jointAnswer_trunk_partStatus (s : State) (p : Option Nat) (a b : Bool) (g : Settings → Settings) : (s.jointAnswer p a b g).trunk.partStatus = s.trunk.partStatus := by
  cases p <;> simp [State.jointAnswer]

@[simp] theorem TrunkPort.fill_rxQueue (t : TrunkPort) (n : Nat) (c : ReplyCode) (fs : List Byte) : (t.fill n c fs).rxQueue = t.rxQueue := by
  simp only [TrunkPort.fill]; split <;> rfl

@[simp] theorem TrunkPort.jointAnswer_rxQueue (t : TrunkPort) (n : Nat) (a b : Bool) (g : Settings → Settings) : (t.jointAnswer n a b g).rxQueue = t.rxQueue := by
  simp only [TrunkPort.jointAnswer]; split
  · rfl
  · split <;> rfl

@[simp] theorem State.answer_trunk_rxQueue (s : State) (p : Option Nat) (c : ReplyCode) (fs : List Byte) : (s.answer p c fs).trunk.rxQueue = s.trunk.rxQueue := by
  cases p <;> simp [State.answer]

@[simp] theorem State.jointAnswer_trunk_rxQueue (s : State) (p : Option Nat) (a b : Bool) (g : Settings → Settings) : (s.jointAnswer p a b g).trunk.rxQueue = s.trunk.rxQueue := by
  cases p <;> simp [State.jointAnswer]

@[simp] theorem TrunkPort.fill_malformed (t : TrunkPort) (n : Nat) (c : ReplyCode) (fs : List Byte) : (t.fill n c fs).malformed = t.malformed := by
  simp only [TrunkPort.fill]; split <;> rfl

@[simp] theorem TrunkPort.jointAnswer_malformed (t : TrunkPort) (n : Nat) (a b : Bool) (g : Settings → Settings) : (t.jointAnswer n a b g).malformed = t.malformed := by
  simp only [TrunkPort.jointAnswer]; split
  · rfl
  · split <;> rfl

@[simp] theorem State.answer_trunk_malformed (s : State) (p : Option Nat) (c : ReplyCode) (fs : List Byte) : (s.answer p c fs).trunk.malformed = s.trunk.malformed := by
  cases p <;> simp [State.answer]

@[simp] theorem State.jointAnswer_trunk_malformed (s : State) (p : Option Nat) (a b : Bool) (g : Settings → Settings) : (s.jointAnswer p a b g).trunk.malformed = s.trunk.malformed := by
  cases p <;> simp [State.jointAnswer]

@[simp] theorem TrunkPort.fill_rxOverflow (t : TrunkPort) (n : Nat) (c : ReplyCode) (fs : List Byte) : (t.fill n c fs).rxOverflow = t.rxOverflow := by
  simp only [TrunkPort.fill]; split <;> rfl

@[simp] theorem TrunkPort.jointAnswer_rxOverflow (t : TrunkPort) (n : Nat) (a b : Bool) (g : Settings → Settings) : (t.jointAnswer n a b g).rxOverflow = t.rxOverflow := by
  simp only [TrunkPort.jointAnswer]; split
  · rfl
  · split <;> rfl

@[simp] theorem State.answer_trunk_rxOverflow (s : State) (p : Option Nat) (c : ReplyCode) (fs : List Byte) : (s.answer p c fs).trunk.rxOverflow = s.trunk.rxOverflow := by
  cases p <;> simp [State.answer]

@[simp] theorem State.jointAnswer_trunk_rxOverflow (s : State) (p : Option Nat) (a b : Bool) (g : Settings → Settings) : (s.jointAnswer p a b g).trunk.rxOverflow = s.trunk.rxOverflow := by
  cases p <;> simp [State.jointAnswer]

@[simp] theorem TrunkPort.fill_conditions (t : TrunkPort) (n : Nat) (c : ReplyCode) (fs : List Byte) : (t.fill n c fs).conditions = t.conditions := by
  simp only [TrunkPort.fill]; split <;> rfl

@[simp] theorem TrunkPort.jointAnswer_conditions (t : TrunkPort) (n : Nat) (a b : Bool) (g : Settings → Settings) : (t.jointAnswer n a b g).conditions = t.conditions := by
  simp only [TrunkPort.jointAnswer]; split
  · rfl
  · split <;> rfl

@[simp] theorem State.answer_trunk_conditions (s : State) (p : Option Nat) (c : ReplyCode) (fs : List Byte) : (s.answer p c fs).trunk.conditions = s.trunk.conditions := by
  cases p <;> simp [State.answer]

@[simp] theorem State.jointAnswer_trunk_conditions (s : State) (p : Option Nat) (a b : Bool) (g : Settings → Settings) : (s.jointAnswer p a b g).trunk.conditions = s.trunk.conditions := by
  cases p <;> simp [State.jointAnswer]

@[simp] theorem TrunkPort.fill_pendingNotices (t : TrunkPort) (n : Nat) (c : ReplyCode) (fs : List Byte) : (t.fill n c fs).pendingNotices = t.pendingNotices := by
  simp only [TrunkPort.fill]; split <;> rfl

@[simp] theorem TrunkPort.jointAnswer_pendingNotices (t : TrunkPort) (n : Nat) (a b : Bool) (g : Settings → Settings) : (t.jointAnswer n a b g).pendingNotices = t.pendingNotices := by
  simp only [TrunkPort.jointAnswer]; split
  · rfl
  · split <;> rfl

@[simp] theorem State.answer_trunk_pendingNotices (s : State) (p : Option Nat) (c : ReplyCode) (fs : List Byte) : (s.answer p c fs).trunk.pendingNotices = s.trunk.pendingNotices := by
  cases p <;> simp [State.answer]

@[simp] theorem State.jointAnswer_trunk_pendingNotices (s : State) (p : Option Nat) (a b : Bool) (g : Settings → Settings) : (s.jointAnswer p a b g).trunk.pendingNotices = s.trunk.pendingNotices := by
  cases p <;> simp [State.jointAnswer]

@[simp] theorem TrunkPort.fill_transmitter (t : TrunkPort) (n : Nat) (c : ReplyCode) (fs : List Byte) : (t.fill n c fs).transmitter = t.transmitter := by
  simp only [TrunkPort.fill]; split <;> rfl

@[simp] theorem TrunkPort.jointAnswer_transmitter (t : TrunkPort) (n : Nat) (a b : Bool) (g : Settings → Settings) : (t.jointAnswer n a b g).transmitter = t.transmitter := by
  simp only [TrunkPort.jointAnswer]; split
  · rfl
  · split <;> rfl

@[simp] theorem State.answer_trunk_transmitter (s : State) (p : Option Nat) (c : ReplyCode) (fs : List Byte) : (s.answer p c fs).trunk.transmitter = s.trunk.transmitter := by
  cases p <;> simp [State.answer]

@[simp] theorem State.jointAnswer_trunk_transmitter (s : State) (p : Option Nat) (a b : Bool) (g : Settings → Settings) : (s.jointAnswer p a b g).trunk.transmitter = s.trunk.transmitter := by
  cases p <;> simp [State.jointAnswer]

@[simp] theorem TrunkPort.fill_raises (t : TrunkPort) (n : Nat) (c : ReplyCode) (fs : List Byte) : (t.fill n c fs).raises = t.raises := by
  simp only [TrunkPort.fill]; split <;> rfl

@[simp] theorem TrunkPort.jointAnswer_raises (t : TrunkPort) (n : Nat) (a b : Bool) (g : Settings → Settings) : (t.jointAnswer n a b g).raises = t.raises := by
  simp only [TrunkPort.jointAnswer]; split
  · rfl
  · split <;> rfl

@[simp] theorem State.answer_trunk_raises (s : State) (p : Option Nat) (c : ReplyCode) (fs : List Byte) : (s.answer p c fs).trunk.raises = s.trunk.raises := by
  cases p <;> simp [State.answer]

@[simp] theorem State.jointAnswer_trunk_raises (s : State) (p : Option Nat) (a b : Bool) (g : Settings → Settings) : (s.jointAnswer p a b g).trunk.raises = s.trunk.raises := by
  cases p <;> simp [State.jointAnswer]

@[simp] theorem TrunkPort.fill_restarts (t : TrunkPort) (n : Nat) (c : ReplyCode) (fs : List Byte) : (t.fill n c fs).restarts = t.restarts := by
  simp only [TrunkPort.fill]; split <;> rfl

@[simp] theorem TrunkPort.jointAnswer_restarts (t : TrunkPort) (n : Nat) (a b : Bool) (g : Settings → Settings) : (t.jointAnswer n a b g).restarts = t.restarts := by
  simp only [TrunkPort.jointAnswer]; split
  · rfl
  · split <;> rfl

@[simp] theorem State.answer_trunk_restarts (s : State) (p : Option Nat) (c : ReplyCode) (fs : List Byte) : (s.answer p c fs).trunk.restarts = s.trunk.restarts := by
  cases p <;> simp [State.answer]

@[simp] theorem State.jointAnswer_trunk_restarts (s : State) (p : Option Nat) (a b : Bool) (g : Settings → Settings) : (s.jointAnswer p a b g).trunk.restarts = s.trunk.restarts := by
  cases p <;> simp [State.jointAnswer]

@[simp] theorem State.answer_lane (s : State) (p : Option Nat) (c : ReplyCode) (fs : List Byte) (i : LaneNo) : (s.answer p c fs).lane i = s.lane i := by
  cases p <;> rfl

@[simp] theorem State.answer_lift (s : State) (p : Option Nat) (c : ReplyCode) (fs : List Byte) (i : LiftNo) : (s.answer p c fs).lift i = s.lift i := by
  cases p <;> rfl

@[simp] theorem State.answer_product (s : State) (p : Option Nat) (c : ReplyCode) (fs : List Byte) (i : ProductCode) : (s.answer p c fs).product i = s.product i := by
  cases p <;> rfl

@[simp] theorem State.jointAnswer_lane (s : State) (p : Option Nat) (a b : Bool) (g : Settings → Settings) (i : LaneNo) : (s.jointAnswer p a b g).lane i = s.lane i := by
  cases p <;> rfl

@[simp] theorem State.jointAnswer_lift (s : State) (p : Option Nat) (a b : Bool) (g : Settings → Settings) (i : LiftNo) : (s.jointAnswer p a b g).lift i = s.lift i := by
  cases p <;> rfl

@[simp] theorem State.jointAnswer_product (s : State) (p : Option Nat) (a b : Bool) (g : Settings → Settings) (i : ProductCode) : (s.jointAnswer p a b g).product i = s.product i := by
  cases p <;> rfl

@[simp] theorem State.setLane_product (s : State) (l : LaneNo) (x : Lane) (j : ProductCode) : (s.setLane l x).product j = s.product j := rfl

@[simp] theorem State.setLift_product (s : State) (i : LiftNo) (x : Lift) (j : ProductCode) : (s.setLift i x).product j = s.product j := rfl

@[simp] theorem State.setProduct_lane (s : State) (c : ProductCode) (p : Product) (j : LaneNo) : (s.setProduct c p).lane j = s.lane j := rfl

@[simp] theorem State.setProduct_lift (s : State) (c : ProductCode) (p : Product) (j : LiftNo) : (s.setProduct c p).lift j = s.lift j := rfl

@[simp] theorem State.countRow_lane (s : State) (c : ProductCode) (j : LaneNo) : (s.countRow c).lane j = s.lane j := rfl

@[simp] theorem State.countRow_lift (s : State) (c : ProductCode) (j : LiftNo) : (s.countRow c).lift j = s.lift j := rfl

@[simp] theorem State.uncountRow_lane (s : State) (c : ProductCode) (j : LaneNo) : (s.uncountRow c).lane j = s.lane j := rfl

@[simp] theorem State.uncountRow_lift (s : State) (c : ProductCode) (j : LiftNo) : (s.uncountRow c).lift j = s.lift j := rfl

@[simp] theorem State.writeRow_lane (s : State) (k : Nat) (row : PassRow) (j : LaneNo) : (s.writeRow k row).lane j = s.lane j := rfl

@[simp] theorem State.writeRow_lift (s : State) (k : Nat) (row : PassRow) (j : LiftNo) : (s.writeRow k row).lift j = s.lift j := rfl

@[simp] theorem State.writeRow_product (s : State) (k : Nat) (row : PassRow) (j : ProductCode) : (s.writeRow k row).product j = s.product j := rfl

@[simp] theorem State.insertRow_lane (s : State) (k : Nat) (row : PassRow) (j : LaneNo) : (s.insertRow k row).lane j = s.lane j := rfl

@[simp] theorem State.insertRow_lift (s : State) (k : Nat) (row : PassRow) (j : LiftNo) : (s.insertRow k row).lift j = s.lift j := rfl

@[simp] theorem State.deleteRow_lane (s : State) (k : Nat) (row : PassRow) (j : LaneNo) : (s.deleteRow k row).lane j = s.lane j := rfl

@[simp] theorem State.deleteRow_lift (s : State) (k : Nat) (row : PassRow) (j : LiftNo) : (s.deleteRow k row).lift j = s.lift j := rfl

@[simp] theorem State.dropNextFor_lane (s : State) (o : Owner) (j : LaneNo) : (s.dropNextFor o).lane j = s.lane j := rfl

@[simp] theorem State.dropNextFor_lift (s : State) (o : Owner) (j : LiftNo) : (s.dropNextFor o).lift j = s.lift j := rfl

@[simp] theorem State.dropNextFor_product (s : State) (o : Owner) (j : ProductCode) : (s.dropNextFor o).product j = s.product j := rfl

@[simp] theorem State.granted_lane (s : State) (r : Requester) (j : LaneNo) : (s.granted r).lane j = s.lane j := rfl

@[simp] theorem State.granted_lift (s : State) (r : Requester) (j : LiftNo) : (s.granted r).lift j = s.lift j := rfl

@[simp] theorem State.granted_product (s : State) (r : Requester) (j : ProductCode) : (s.granted r).product j = s.product j := rfl

@[simp] theorem State.dropRowOp_lift (s : State) (l : LaneNo) (j : LiftNo) : (s.dropRowOp l).lift j = s.lift j := rfl

@[simp] theorem State.dropRowOp_product (s : State) (l : LaneNo) (j : ProductCode) : (s.dropRowOp l).product j = s.product j := rfl

@[simp] theorem State.streamHeard_lane (s : State)  (j : LaneNo) : (s.streamHeard).lane j = s.lane j := rfl

@[simp] theorem State.streamHeard_lift (s : State)  (j : LiftNo) : (s.streamHeard).lift j = s.lift j := rfl

@[simp] theorem State.streamHeard_product (s : State)  (j : ProductCode) : (s.streamHeard).product j = s.product j := rfl

@[simp] theorem State.handCancellation_lane (s : State) (l : LaneNo) (u : Uid) (j : LaneNo) : (s.handCancellation l u).lane j = s.lane j := rfl

@[simp] theorem State.handCancellation_lift (s : State) (l : LaneNo) (u : Uid) (j : LiftNo) : (s.handCancellation l u).lift j = s.lift j := rfl

@[simp] theorem State.handCancellation_product (s : State) (l : LaneNo) (u : Uid) (j : ProductCode) : (s.handCancellation l u).product j = s.product j := rfl

@[simp] theorem State.handPassage_lane (s : State) (r : RecordBody) (j : LaneNo) : (s.handPassage r).lane j = s.lane j := rfl

@[simp] theorem State.handPassage_lift (s : State) (r : RecordBody) (j : LiftNo) : (s.handPassage r).lift j = s.lift j := rfl

@[simp] theorem State.handPassage_product (s : State) (r : RecordBody) (j : ProductCode) : (s.handPassage r).product j = s.product j := rfl

@[simp] theorem State.raiseOverconsumed_lane (s : State) (u : Uid) (d : Nat) (j : LaneNo) : (s.raiseOverconsumed u d).lane j = s.lane j := rfl

@[simp] theorem State.raiseOverconsumed_lift (s : State) (u : Uid) (d : Nat) (j : LiftNo) : (s.raiseOverconsumed u d).lift j = s.lift j := rfl

@[simp] theorem State.raiseOverconsumed_product (s : State) (u : Uid) (d : Nat) (j : ProductCode) : (s.raiseOverconsumed u d).product j = s.product j := rfl

@[simp] theorem State.latchRaise_lane (s : State) (r : Raise) (j : LaneNo) : (s.latchRaise r).lane j = s.lane j := rfl

@[simp] theorem State.latchRaise_lift (s : State) (r : Raise) (j : LiftNo) : (s.latchRaise r).lift j = s.lift j := rfl

@[simp] theorem State.latchRaise_product (s : State) (r : Raise) (j : ProductCode) : (s.latchRaise r).product j = s.product j := rfl

@[simp] theorem State.dropDayChange_lane (s : State) (l : LaneNo) (j : LaneNo) : (s.dropDayChange l).lane j = s.lane j := rfl

@[simp] theorem State.dropDayChange_lift (s : State) (l : LaneNo) (j : LiftNo) : (s.dropDayChange l).lift j = s.lift j := rfl

@[simp] theorem State.dropDayChange_product (s : State) (l : LaneNo) (j : ProductCode) : (s.dropDayChange l).product j = s.product j := rfl

@[simp] theorem State.dropAnswer_lane (s : State) (l : LaneNo) (i : LiftNo) (j : LaneNo) : (s.dropAnswer l i).lane j = s.lane j := rfl

@[simp] theorem State.dropAnswer_product (s : State) (l : LaneNo) (i : LiftNo) (j : ProductCode) : (s.dropAnswer l i).product j = s.product j := rfl

@[simp] theorem State.dropChange_lane (s : State) (l : LaneNo) (i : LiftNo) (j : LaneNo) : (s.dropChange l i).lane j = s.lane j := rfl

@[simp] theorem State.dropChange_product (s : State) (l : LaneNo) (i : LiftNo) (j : ProductCode) : (s.dropChange l i).product j = s.product j := rfl

@[simp] theorem State.laneEvent_lift (s : State) (l : LaneNo) (f : LaneEnv → Lane → Lane) (j : LiftNo) : (s.laneEvent l f).lift j = s.lift j := rfl

@[simp] theorem State.laneEvent_product (s : State) (l : LaneNo) (f : LaneEnv → Lane → Lane) (j : ProductCode) : (s.laneEvent l f).product j = s.product j := rfl

@[simp] theorem State.dropFrame_lift (s : State) (l : LaneNo) (j : LiftNo) : (s.dropFrame l).lift j = s.lift j := rfl

@[simp] theorem State.dropFrame_product (s : State) (l : LaneNo) (j : ProductCode) : (s.dropFrame l).product j = s.product j := rfl

@[simp] theorem State.liftTakes_product (s : State) (l : LaneNo) (i : LiftNo) (y : Lift) (j : ProductCode) : (s.liftTakes l i y).product j = s.product j := rfl

/-! ### Reading a lane, a lift, a product after an update -/

@[simp] theorem State.setLane_lane_same (s : State) (l : LaneNo) (x : Lane) : (s.setLane l x).lane l = x := by
  simp [State.setLane, State.lane]

theorem State.setLane_lane_other (s : State) {l m : LaneNo} (x : Lane) (h : m ≠ l) : (s.setLane l x).lane m = s.lane m := by
  simp only [State.setLane, State.lane]
  exact Vector.getElem_set_ne _ _ (fun e => h (Fin.ext e.symm))

@[simp] theorem State.setLane_lift (s : State) (l : LaneNo) (x : Lane) (i : LiftNo) : (s.setLane l x).lift i = s.lift i := rfl

@[simp] theorem State.setLift_lift_same (s : State) (i : LiftNo) (x : Lift) : (s.setLift i x).lift i = x := by
  simp [State.setLift, State.lift]

theorem State.setLift_lift_other (s : State) {i j : LiftNo} (x : Lift) (h : j ≠ i) : (s.setLift i x).lift j = s.lift j := by
  simp only [State.setLift, State.lift]
  exact Vector.getElem_set_ne _ _ (fun e => h (Fin.ext e.symm))

@[simp] theorem State.setLift_lane (s : State) (i : LiftNo) (x : Lift) (l : LaneNo) : (s.setLift i x).lane l = s.lane l := rfl

@[simp] theorem State.setProduct_product_same (s : State) (c : ProductCode) (p : Product) : (s.setProduct c p).product c = p := by
  simp [State.setProduct, State.product]

theorem State.setProduct_product_other (s : State) {c d : ProductCode} (p : Product) (h : d ≠ c) :
    (s.setProduct c p).product d = s.product d := by
  simp only [State.setProduct, State.product]
  exact Vector.getElem_set_ne _ _ (fun e => h (Fin.ext e.symm))

theorem State.lane_ext {s t : State} (h : t.lanes = s.lanes) (l : LaneNo) : t.lane l = s.lane l := by
  simp [State.lane, h]

theorem State.lift_ext {s t : State} (h : t.lifts = s.lifts) (i : LiftNo) : t.lift i = s.lift i := by
  simp [State.lift, h]

theorem State.product_ext {s t : State} (h : t.products = s.products) (c : ProductCode) : t.product c = s.product c := by
  simp [State.product, h]

theorem State.setLane_lane (s : State) (l m : LaneNo) (x : Lane) :
    (s.setLane l x).lane m = if m = l then x else s.lane m := by
  split
  · next h => subst h; simp
  · next h => exact State.setLane_lane_other s x h

theorem State.setLift_lift (s : State) (i j : LiftNo) (x : Lift) :
    (s.setLift i x).lift j = if j = i then x else s.lift j := by
  split
  · next h => subst h; simp
  · next h => exact State.setLift_lift_other s x h

theorem State.setProduct_product (s : State) (c d : ProductCode) (p : Product) :
    (s.setProduct c p).product d = if d = c then p else s.product d := by
  split
  · next h => subst h; simp
  · next h => exact State.setProduct_product_other s p h

@[simp] theorem State.laneEvent_lane_same (s : State) (l : LaneNo) (f : LaneEnv → Lane → Lane) :
    (s.laneEvent l f).lane l = (f (s.laneEnv l) (s.lane l)).settle := by
  simp [State.laneEvent]

theorem State.laneEvent_lane_other (s : State) {l m : LaneNo} (f : LaneEnv → Lane → Lane) (h : m ≠ l) :
    (s.laneEvent l f).lane m = s.lane m := State.setLane_lane_other s _ h

end Sys2Proof.Machine
end

