-- ==== Sys2Proof/Laws/Port.lean ====
section
/-! SUPPORT. What taking a request, a grant or a row operation can do: said once, so that no proof unfolds them (R6, R188). -/
namespace Sys2Proof.Machine

theorem State.takeRequest_eq_some {s s' : State} {o : Owner} {k : RequestKind} {r : Routed} :
    s.takeRequest o k = some (r, s') ↔ s.nextFor o = some r ∧ r.kind = k ∧ s' = s.dropNextFor o := by
  simp only [State.takeRequest]
  split
  · next q hq =>
    split
    · next hk =>
      simp only [Option.some.injEq, Prod.mk.injEq, hq]
      constructor
      · rintro ⟨rfl, rfl⟩; exact ⟨rfl, hk, rfl⟩
      · rintro ⟨rfl, -, rfl⟩; exact ⟨rfl, rfl⟩
    · next hk =>
      simp only [hq, Option.some.injEq, reduceCtorEq, false_iff]
      rintro ⟨rfl, h, -⟩; exact hk h
  · next hq => simp [hq]

theorem State.takeRequest_of {s : State} {o : Owner} {k : RequestKind} {r : Routed} (h : s.nextFor o = some r)
    (hk : r.kind = k) : s.takeRequest o k = some (r, s.dropNextFor o) :=
  State.takeRequest_eq_some.2 ⟨h, hk, rfl⟩

theorem State.nextFor_owner {s : State} {o : Owner} {r : Routed} (h : s.nextFor o = some r) : r.owner = o := by
  simpa using List.find?_some h

theorem State.grant_eq_some {s s' : State} {q : Requester} :
    s.grant q = some s' ↔ s.nextGrant = some q ∧ s' = s.granted q := by
  simp only [State.grant]
  split
  · next h => simp [h, eq_comm]
  · next h => simp [h]

theorem State.takePortRequest_eq_some {s s' : State} {k : RequestKind} {r : Routed} :
    s.takePortRequest k = some (r, s') ↔
      s.nextGrant = some .trunkOwners ∧ presentedIn s.routed [] = some r ∧ r.kind = k
        ∧ s' = (s.granted .trunkOwners).dropNextFor r.owner := by
  simp only [State.takePortRequest]
  split
  · next g q hg hq =>
    rw [State.grant_eq_some] at hg
    obtain ⟨hn, rfl⟩ := hg
    split
    · next hk =>
      simp only [Option.some.injEq, Prod.mk.injEq, hn, hq, true_and]
      constructor
      · rintro ⟨rfl, rfl⟩; exact ⟨rfl, hk, rfl⟩
      · rintro ⟨rfl, -, rfl⟩; exact ⟨rfl, rfl⟩
    · next hk =>
      simp only [hn, hq, Option.some.injEq, reduceCtorEq, true_and, false_iff]
      rintro ⟨rfl, h, -⟩; exact hk h
  · next h =>
    simp only [reduceCtorEq, false_iff]
    rintro ⟨hn, hq, -, -⟩
    exact h _ _ (State.grant_eq_some.2 ⟨hn, rfl⟩) hq

theorem State.takePortRequest_of {s : State} {k : RequestKind} {r : Routed} (hn : s.nextGrant = some .trunkOwners)
    (hp : presentedIn s.routed [] = some r) (hk : r.kind = k) :
    s.takePortRequest k = some (r, (s.granted .trunkOwners).dropNextFor r.owner) :=
  State.takePortRequest_eq_some.2 ⟨hn, hp, hk, rfl⟩

theorem State.takeRowOp_eq_some {s s' : State} {l : LaneNo} {op : RowOp} :
    s.takeRowOp l = some (op, s') ↔
      s.nextGrant = some (.lane l) ∧ (s.lane l).rowOps.head? = some op ∧ s' = (s.granted (.lane l)).dropRowOp l := by
  simp only [State.takeRowOp]
  split
  · next g op' rest hg hq =>
    rw [State.grant_eq_some] at hg
    obtain ⟨hn, rfl⟩ := hg
    simp only [Option.some.injEq, Prod.mk.injEq, hn, hq, true_and, List.head?_cons]
    constructor
    · rintro ⟨rfl, rfl⟩; exact ⟨rfl, rfl⟩
    · rintro ⟨rfl, rfl⟩; exact ⟨rfl, rfl⟩
  · next h =>
    simp only [reduceCtorEq, false_iff]
    rintro ⟨hn, hq, -⟩
    obtain ⟨rest, hr⟩ := List.head?_eq_some_iff.1 hq
    exact h _ _ _ (State.grant_eq_some.2 ⟨hn, rfl⟩) hr

theorem State.takeRowOp_of {s : State} {l : LaneNo} {op : RowOp} (hn : s.nextGrant = some (.lane l))
    (hq : (s.lane l).rowOps.head? = some op) : s.takeRowOp l = some (op, (s.granted (.lane l)).dropRowOp l) :=
  State.takeRowOp_eq_some.2 ⟨hn, hq, rfl⟩

/-- The table port grants nothing while the memory clear runs (R7). -/
theorem State.nextGrant_ready {s : State} {q : Requester} (h : s.nextGrant = some q) : s.trunk.partStatus = .ready := by
  simp only [State.nextGrant] at h
  split at h
  · simp at h
  · assumption

/-- A stream request is taken only while no chunk is applied (R176, R182). -/
theorem State.takeStreamRequest_eq_some {s s' : State} {k : RequestKind} {r : Routed} :
    s.takeStreamRequest k = some (r, s') ↔
      s.stream.chunk = none ∧ s.nextFor .streamUnit = some r ∧ r.kind = k
        ∧ s' = (s.dropNextFor .streamUnit).streamHeard := by
  simp only [State.takeStreamRequest]
  cases hc : s.stream.chunk with
  | some c => simp
  | none =>
    simp only [Option.isSome_none, Bool.false_eq_true, if_false, Option.map_eq_some_iff, Prod.mk.injEq, true_and,
      Prod.exists]
    constructor
    · rintro ⟨q, t, h, rfl, rfl⟩
      rw [State.takeRequest_eq_some] at h
      obtain ⟨h1, h2, rfl⟩ := h
      exact ⟨h1, h2, rfl⟩
    · rintro ⟨h1, h2, rfl⟩
      exact ⟨r, _, State.takeRequest_of h1 h2, rfl, rfl⟩

theorem State.takeStreamRequest_of {s : State} {k : RequestKind} {r : Routed} (hc : s.stream.chunk = none)
    (hn : s.nextFor .streamUnit = some r) (hk : r.kind = k) :
    s.takeStreamRequest k = some (r, (s.dropNextFor .streamUnit).streamHeard) :=
  State.takeStreamRequest_eq_some.2 ⟨hc, hn, hk, rfl⟩

end Sys2Proof.Machine
end

