-- ==== Sys2Proof/Laws/Frames.lean ====
section
/-! SUPPORT. What the operations with cases leave unchanged: one lemma per field. -/
namespace Sys2Proof.Machine

/-! ### `State.applyProductPut` -/

@[simp] theorem State.applyProductPut_trunk (s : State) (f : ProductForm) : ((s.applyProductPut f).2).trunk = s.trunk := by
  simp only [State.applyProductPut]
  repeat' split
  all_goals simp

@[simp] theorem State.applyProductPut_routed (s : State) (f : ProductForm) : ((s.applyProductPut f).2).routed = s.routed := by
  simp only [State.applyProductPut]
  repeat' split
  all_goals simp

@[simp] theorem State.applyProductPut_table (s : State) (f : ProductForm) : ((s.applyProductPut f).2).table = s.table := by
  simp only [State.applyProductPut]
  repeat' split
  all_goals simp

@[simp] theorem State.applyProductPut_arbiter (s : State) (f : ProductForm) : ((s.applyProductPut f).2).arbiter = s.arbiter := by
  simp only [State.applyProductPut]
  repeat' split
  all_goals simp

@[simp] theorem State.applyProductPut_protection (s : State) (f : ProductForm) : ((s.applyProductPut f).2).protection = s.protection := by
  simp only [State.applyProductPut]
  repeat' split
  all_goals simp

@[simp] theorem State.applyProductPut_serviceKey (s : State) (f : ProductForm) : ((s.applyProductPut f).2).serviceKey = s.serviceKey := by
  simp only [State.applyProductPut]
  repeat' split
  all_goals simp

@[simp] theorem State.applyProductPut_calendar (s : State) (f : ProductForm) : ((s.applyProductPut f).2).calendar = s.calendar := by
  simp only [State.applyProductPut]
  repeat' split
  all_goals simp

@[simp] theorem State.applyProductPut_lanes (s : State) (f : ProductForm) : ((s.applyProductPut f).2).lanes = s.lanes := by
  simp only [State.applyProductPut]
  repeat' split
  all_goals simp

@[simp] theorem State.applyProductPut_lifts (s : State) (f : ProductForm) : ((s.applyProductPut f).2).lifts = s.lifts := by
  simp only [State.applyProductPut]
  repeat' split
  all_goals simp

@[simp] theorem State.applyProductPut_journal (s : State) (f : ProductForm) : ((s.applyProductPut f).2).journal = s.journal := by
  simp only [State.applyProductPut]
  repeat' split
  all_goals simp

@[simp] theorem State.applyProductPut_minimumPayout (s : State) (f : ProductForm) : ((s.applyProductPut f).2).minimumPayout = s.minimumPayout := by
  simp only [State.applyProductPut]
  repeat' split
  all_goals simp

@[simp] theorem State.applyProductPut_stream (s : State) (f : ProductForm) : ((s.applyProductPut f).2).stream = s.stream := by
  simp only [State.applyProductPut]
  repeat' split
  all_goals simp

@[simp] theorem State.applyProductPut_timebase (s : State) (f : ProductForm) : ((s.applyProductPut f).2).timebase = s.timebase := by
  simp only [State.applyProductPut]
  repeat' split
  all_goals simp

@[simp] theorem State.applyProductPut_resetLine (s : State) (f : ProductForm) : ((s.applyProductPut f).2).resetLine = s.resetLine := by
  simp only [State.applyProductPut]
  repeat' split
  all_goals simp

@[simp] theorem State.applyProductPut_freeIndex (s : State) (f : ProductForm) : ((s.applyProductPut f).2).freeIndex = s.freeIndex := by
  simp only [State.applyProductPut]
  repeat' split
  all_goals simp

@[simp] theorem State.applyProductPut_pending (s : State) (f : ProductForm) : ((s.applyProductPut f).2).pending = s.pending := by
  simp only [State.applyProductPut]
  repeat' split
  all_goals simp

@[simp] theorem State.applyProductPut_lane (s : State) (f : ProductForm) (j : LaneNo) : ((s.applyProductPut f).2).lane j = s.lane j := State.lane_ext (by simp) j

@[simp] theorem State.applyProductPut_lift (s : State) (f : ProductForm) (j : LiftNo) : ((s.applyProductPut f).2).lift j = s.lift j := State.lift_ext (by simp) j

/-! ### `State.applyProductClear` -/

@[simp] theorem State.applyProductClear_trunk (s : State) (c : ProductCode) : ((s.applyProductClear c).2).trunk = s.trunk := by
  simp only [State.applyProductClear]
  repeat' split
  all_goals simp

@[simp] theorem State.applyProductClear_routed (s : State) (c : ProductCode) : ((s.applyProductClear c).2).routed = s.routed := by
  simp only [State.applyProductClear]
  repeat' split
  all_goals simp

@[simp] theorem State.applyProductClear_table (s : State) (c : ProductCode) : ((s.applyProductClear c).2).table = s.table := by
  simp only [State.applyProductClear]
  repeat' split
  all_goals simp

@[simp] theorem State.applyProductClear_arbiter (s : State) (c : ProductCode) : ((s.applyProductClear c).2).arbiter = s.arbiter := by
  simp only [State.applyProductClear]
  repeat' split
  all_goals simp

@[simp] theorem State.applyProductClear_protection (s : State) (c : ProductCode) : ((s.applyProductClear c).2).protection = s.protection := by
  simp only [State.applyProductClear]
  repeat' split
  all_goals simp

@[simp] theorem State.applyProductClear_serviceKey (s : State) (c : ProductCode) : ((s.applyProductClear c).2).serviceKey = s.serviceKey := by
  simp only [State.applyProductClear]
  repeat' split
  all_goals simp

@[simp] theorem State.applyProductClear_calendar (s : State) (c : ProductCode) : ((s.applyProductClear c).2).calendar = s.calendar := by
  simp only [State.applyProductClear]
  repeat' split
  all_goals simp

@[simp] theorem State.applyProductClear_lanes (s : State) (c : ProductCode) : ((s.applyProductClear c).2).lanes = s.lanes := by
  simp only [State.applyProductClear]
  repeat' split
  all_goals simp

@[simp] theorem State.applyProductClear_lifts (s : State) (c : ProductCode) : ((s.applyProductClear c).2).lifts = s.lifts := by
  simp only [State.applyProductClear]
  repeat' split
  all_goals simp

@[simp] theorem State.applyProductClear_journal (s : State) (c : ProductCode) : ((s.applyProductClear c).2).journal = s.journal := by
  simp only [State.applyProductClear]
  repeat' split
  all_goals simp

@[simp] theorem State.applyProductClear_minimumPayout (s : State) (c : ProductCode) : ((s.applyProductClear c).2).minimumPayout = s.minimumPayout := by
  simp only [State.applyProductClear]
  repeat' split
  all_goals simp

@[simp] theorem State.applyProductClear_stream (s : State) (c : ProductCode) : ((s.applyProductClear c).2).stream = s.stream := by
  simp only [State.applyProductClear]
  repeat' split
  all_goals simp

@[simp] theorem State.applyProductClear_timebase (s : State) (c : ProductCode) : ((s.applyProductClear c).2).timebase = s.timebase := by
  simp only [State.applyProductClear]
  repeat' split
  all_goals simp

@[simp] theorem State.applyProductClear_resetLine (s : State) (c : ProductCode) : ((s.applyProductClear c).2).resetLine = s.resetLine := by
  simp only [State.applyProductClear]
  repeat' split
  all_goals simp

@[simp] theorem State.applyProductClear_freeIndex (s : State) (c : ProductCode) : ((s.applyProductClear c).2).freeIndex = s.freeIndex := by
  simp only [State.applyProductClear]
  repeat' split
  all_goals simp

@[simp] theorem State.applyProductClear_pending (s : State) (c : ProductCode) : ((s.applyProductClear c).2).pending = s.pending := by
  simp only [State.applyProductClear]
  repeat' split
  all_goals simp

@[simp] theorem State.applyProductClear_lane (s : State) (c : ProductCode) (j : LaneNo) : ((s.applyProductClear c).2).lane j = s.lane j := State.lane_ext (by simp) j

@[simp] theorem State.applyProductClear_lift (s : State) (c : ProductCode) (j : LiftNo) : ((s.applyProductClear c).2).lift j = s.lift j := State.lift_ext (by simp) j

/-! ### `State.takeProtectSet` -/

@[simp] theorem State.takeProtectSet_trunk (s : State) (m : ProtectionMode) (f : ProtectForm) : ((s.takeProtectSet m f).2).trunk = s.trunk := by
  simp only [State.takeProtectSet]
  repeat' split
  all_goals simp

@[simp] theorem State.takeProtectSet_routed (s : State) (m : ProtectionMode) (f : ProtectForm) : ((s.takeProtectSet m f).2).routed = s.routed := by
  simp only [State.takeProtectSet]
  repeat' split
  all_goals simp

@[simp] theorem State.takeProtectSet_table (s : State) (m : ProtectionMode) (f : ProtectForm) : ((s.takeProtectSet m f).2).table = s.table := by
  simp only [State.takeProtectSet]
  repeat' split
  all_goals simp

@[simp] theorem State.takeProtectSet_arbiter (s : State) (m : ProtectionMode) (f : ProtectForm) : ((s.takeProtectSet m f).2).arbiter = s.arbiter := by
  simp only [State.takeProtectSet]
  repeat' split
  all_goals simp

@[simp] theorem State.takeProtectSet_products (s : State) (m : ProtectionMode) (f : ProtectForm) : ((s.takeProtectSet m f).2).products = s.products := by
  simp only [State.takeProtectSet]
  repeat' split
  all_goals simp

@[simp] theorem State.takeProtectSet_serviceKey (s : State) (m : ProtectionMode) (f : ProtectForm) : ((s.takeProtectSet m f).2).serviceKey = s.serviceKey := by
  simp only [State.takeProtectSet]
  repeat' split
  all_goals simp

@[simp] theorem State.takeProtectSet_calendar (s : State) (m : ProtectionMode) (f : ProtectForm) : ((s.takeProtectSet m f).2).calendar = s.calendar := by
  simp only [State.takeProtectSet]
  repeat' split
  all_goals simp

@[simp] theorem State.takeProtectSet_lanes (s : State) (m : ProtectionMode) (f : ProtectForm) : ((s.takeProtectSet m f).2).lanes = s.lanes := by
  simp only [State.takeProtectSet]
  repeat' split
  all_goals simp

@[simp] theorem State.takeProtectSet_lifts (s : State) (m : ProtectionMode) (f : ProtectForm) : ((s.takeProtectSet m f).2).lifts = s.lifts := by
  simp only [State.takeProtectSet]
  repeat' split
  all_goals simp

@[simp] theorem State.takeProtectSet_journal (s : State) (m : ProtectionMode) (f : ProtectForm) : ((s.takeProtectSet m f).2).journal = s.journal := by
  simp only [State.takeProtectSet]
  repeat' split
  all_goals simp

@[simp] theorem State.takeProtectSet_minimumPayout (s : State) (m : ProtectionMode) (f : ProtectForm) : ((s.takeProtectSet m f).2).minimumPayout = s.minimumPayout := by
  simp only [State.takeProtectSet]
  repeat' split
  all_goals simp

@[simp] theorem State.takeProtectSet_stream (s : State) (m : ProtectionMode) (f : ProtectForm) : ((s.takeProtectSet m f).2).stream = s.stream := by
  simp only [State.takeProtectSet]
  repeat' split
  all_goals simp

@[simp] theorem State.takeProtectSet_timebase (s : State) (m : ProtectionMode) (f : ProtectForm) : ((s.takeProtectSet m f).2).timebase = s.timebase := by
  simp only [State.takeProtectSet]
  repeat' split
  all_goals simp

@[simp] theorem State.takeProtectSet_resetLine (s : State) (m : ProtectionMode) (f : ProtectForm) : ((s.takeProtectSet m f).2).resetLine = s.resetLine := by
  simp only [State.takeProtectSet]
  repeat' split
  all_goals simp

@[simp] theorem State.takeProtectSet_freeIndex (s : State) (m : ProtectionMode) (f : ProtectForm) : ((s.takeProtectSet m f).2).freeIndex = s.freeIndex := by
  simp only [State.takeProtectSet]
  repeat' split
  all_goals simp

@[simp] theorem State.takeProtectSet_pending (s : State) (m : ProtectionMode) (f : ProtectForm) : ((s.takeProtectSet m f).2).pending = s.pending := by
  simp only [State.takeProtectSet]
  repeat' split
  all_goals simp

@[simp] theorem State.takeProtectSet_lane (s : State) (m : ProtectionMode) (f : ProtectForm) (j : LaneNo) : ((s.takeProtectSet m f).2).lane j = s.lane j := State.lane_ext (by simp) j

@[simp] theorem State.takeProtectSet_lift (s : State) (m : ProtectionMode) (f : ProtectForm) (j : LiftNo) : ((s.takeProtectSet m f).2).lift j = s.lift j := State.lift_ext (by simp) j

@[simp] theorem State.takeProtectSet_product (s : State) (m : ProtectionMode) (f : ProtectForm) (j : ProductCode) : ((s.takeProtectSet m f).2).product j = s.product j := State.product_ext (by simp) j

/-! ### `State.applyProtectSet` -/

@[simp] theorem State.applyProtectSet_trunk (s : State) (f : ProtectForm) : ((s.applyProtectSet f).2).trunk = s.trunk := by
  simp only [State.applyProtectSet]
  repeat' split
  all_goals simp

@[simp] theorem State.applyProtectSet_routed (s : State) (f : ProtectForm) : ((s.applyProtectSet f).2).routed = s.routed := by
  simp only [State.applyProtectSet]
  repeat' split
  all_goals simp

@[simp] theorem State.applyProtectSet_table (s : State) (f : ProtectForm) : ((s.applyProtectSet f).2).table = s.table := by
  simp only [State.applyProtectSet]
  repeat' split
  all_goals simp

@[simp] theorem State.applyProtectSet_arbiter (s : State) (f : ProtectForm) : ((s.applyProtectSet f).2).arbiter = s.arbiter := by
  simp only [State.applyProtectSet]
  repeat' split
  all_goals simp

@[simp] theorem State.applyProtectSet_products (s : State) (f : ProtectForm) : ((s.applyProtectSet f).2).products = s.products := by
  simp only [State.applyProtectSet]
  repeat' split
  all_goals simp

@[simp] theorem State.applyProtectSet_serviceKey (s : State) (f : ProtectForm) : ((s.applyProtectSet f).2).serviceKey = s.serviceKey := by
  simp only [State.applyProtectSet]
  repeat' split
  all_goals simp

@[simp] theorem State.applyProtectSet_calendar (s : State) (f : ProtectForm) : ((s.applyProtectSet f).2).calendar = s.calendar := by
  simp only [State.applyProtectSet]
  repeat' split
  all_goals simp

@[simp] theorem State.applyProtectSet_lanes (s : State) (f : ProtectForm) : ((s.applyProtectSet f).2).lanes = s.lanes := by
  simp only [State.applyProtectSet]
  repeat' split
  all_goals simp

@[simp] theorem State.applyProtectSet_lifts (s : State) (f : ProtectForm) : ((s.applyProtectSet f).2).lifts = s.lifts := by
  simp only [State.applyProtectSet]
  repeat' split
  all_goals simp

@[simp] theorem State.applyProtectSet_journal (s : State) (f : ProtectForm) : ((s.applyProtectSet f).2).journal = s.journal := by
  simp only [State.applyProtectSet]
  repeat' split
  all_goals simp

@[simp] theorem State.applyProtectSet_minimumPayout (s : State) (f : ProtectForm) : ((s.applyProtectSet f).2).minimumPayout = s.minimumPayout := by
  simp only [State.applyProtectSet]
  repeat' split
  all_goals simp

@[simp] theorem State.applyProtectSet_stream (s : State) (f : ProtectForm) : ((s.applyProtectSet f).2).stream = s.stream := by
  simp only [State.applyProtectSet]
  repeat' split
  all_goals simp

@[simp] theorem State.applyProtectSet_timebase (s : State) (f : ProtectForm) : ((s.applyProtectSet f).2).timebase = s.timebase := by
  simp only [State.applyProtectSet]
  repeat' split
  all_goals simp

@[simp] theorem State.applyProtectSet_resetLine (s : State) (f : ProtectForm) : ((s.applyProtectSet f).2).resetLine = s.resetLine := by
  simp only [State.applyProtectSet]
  repeat' split
  all_goals simp

@[simp] theorem State.applyProtectSet_freeIndex (s : State) (f : ProtectForm) : ((s.applyProtectSet f).2).freeIndex = s.freeIndex := by
  simp only [State.applyProtectSet]
  repeat' split
  all_goals simp

@[simp] theorem State.applyProtectSet_pending (s : State) (f : ProtectForm) : ((s.applyProtectSet f).2).pending = s.pending := by
  simp only [State.applyProtectSet]
  repeat' split
  all_goals simp

@[simp] theorem State.applyProtectSet_lane (s : State) (f : ProtectForm) (j : LaneNo) : ((s.applyProtectSet f).2).lane j = s.lane j := State.lane_ext (by simp) j

@[simp] theorem State.applyProtectSet_lift (s : State) (f : ProtectForm) (j : LiftNo) : ((s.applyProtectSet f).2).lift j = s.lift j := State.lift_ext (by simp) j

@[simp] theorem State.applyProtectSet_product (s : State) (f : ProtectForm) (j : ProductCode) : ((s.applyProtectSet f).2).product j = s.product j := State.product_ext (by simp) j

/-! ### `State.gatherClosure` -/

@[simp] theorem State.gatherClosure_trunk (s : State)  : (s.gatherClosure).trunk = s.trunk := by
  simp only [State.gatherClosure]
  repeat' split
  all_goals simp

@[simp] theorem State.gatherClosure_routed (s : State)  : (s.gatherClosure).routed = s.routed := by
  simp only [State.gatherClosure]
  repeat' split
  all_goals simp

@[simp] theorem State.gatherClosure_table (s : State)  : (s.gatherClosure).table = s.table := by
  simp only [State.gatherClosure]
  repeat' split
  all_goals simp

@[simp] theorem State.gatherClosure_arbiter (s : State)  : (s.gatherClosure).arbiter = s.arbiter := by
  simp only [State.gatherClosure]
  repeat' split
  all_goals simp

@[simp] theorem State.gatherClosure_products (s : State)  : (s.gatherClosure).products = s.products := by
  simp only [State.gatherClosure]
  repeat' split
  all_goals simp

@[simp] theorem State.gatherClosure_protection (s : State)  : (s.gatherClosure).protection = s.protection := by
  simp only [State.gatherClosure]
  repeat' split
  all_goals simp

@[simp] theorem State.gatherClosure_serviceKey (s : State)  : (s.gatherClosure).serviceKey = s.serviceKey := by
  simp only [State.gatherClosure]
  repeat' split
  all_goals simp

@[simp] theorem State.gatherClosure_lanes (s : State)  : (s.gatherClosure).lanes = s.lanes := by
  simp only [State.gatherClosure]
  repeat' split
  all_goals simp

@[simp] theorem State.gatherClosure_lifts (s : State)  : (s.gatherClosure).lifts = s.lifts := by
  simp only [State.gatherClosure]
  repeat' split
  all_goals simp

@[simp] theorem State.gatherClosure_journal (s : State)  : (s.gatherClosure).journal = s.journal := by
  simp only [State.gatherClosure]
  repeat' split
  all_goals simp

@[simp] theorem State.gatherClosure_minimumPayout (s : State)  : (s.gatherClosure).minimumPayout = s.minimumPayout := by
  simp only [State.gatherClosure]
  repeat' split
  all_goals simp

@[simp] theorem State.gatherClosure_stream (s : State)  : (s.gatherClosure).stream = s.stream := by
  simp only [State.gatherClosure]
  repeat' split
  all_goals simp

@[simp] theorem State.gatherClosure_timebase (s : State)  : (s.gatherClosure).timebase = s.timebase := by
  simp only [State.gatherClosure]
  repeat' split
  all_goals simp

@[simp] theorem State.gatherClosure_resetLine (s : State)  : (s.gatherClosure).resetLine = s.resetLine := by
  simp only [State.gatherClosure]
  repeat' split
  all_goals simp

@[simp] theorem State.gatherClosure_freeIndex (s : State)  : (s.gatherClosure).freeIndex = s.freeIndex := by
  simp only [State.gatherClosure]
  repeat' split
  all_goals simp

@[simp] theorem State.gatherClosure_pending (s : State)  : (s.gatherClosure).pending = s.pending := by
  simp only [State.gatherClosure]
  repeat' split
  all_goals simp

@[simp] theorem State.gatherClosure_lane (s : State)  (j : LaneNo) : (s.gatherClosure).lane j = s.lane j := State.lane_ext (by simp) j

@[simp] theorem State.gatherClosure_lift (s : State)  (j : LiftNo) : (s.gatherClosure).lift j = s.lift j := State.lift_ext (by simp) j

@[simp] theorem State.gatherClosure_product (s : State)  (j : ProductCode) : (s.gatherClosure).product j = s.product j := State.product_ext (by simp) j

/-! ### `State.cancelFor` -/

@[simp] theorem State.cancelFor_trunk (s : State) (r : PassRow) (w : PassStatus) : (s.cancelFor r w).trunk = s.trunk := by
  simp only [State.cancelFor]
  repeat' split
  all_goals simp

@[simp] theorem State.cancelFor_routed (s : State) (r : PassRow) (w : PassStatus) : (s.cancelFor r w).routed = s.routed := by
  simp only [State.cancelFor]
  repeat' split
  all_goals simp

@[simp] theorem State.cancelFor_arbiter (s : State) (r : PassRow) (w : PassStatus) : (s.cancelFor r w).arbiter = s.arbiter := by
  simp only [State.cancelFor]
  repeat' split
  all_goals simp

@[simp] theorem State.cancelFor_products (s : State) (r : PassRow) (w : PassStatus) : (s.cancelFor r w).products = s.products := by
  simp only [State.cancelFor]
  repeat' split
  all_goals simp

@[simp] theorem State.cancelFor_protection (s : State) (r : PassRow) (w : PassStatus) : (s.cancelFor r w).protection = s.protection := by
  simp only [State.cancelFor]
  repeat' split
  all_goals simp

@[simp] theorem State.cancelFor_serviceKey (s : State) (r : PassRow) (w : PassStatus) : (s.cancelFor r w).serviceKey = s.serviceKey := by
  simp only [State.cancelFor]
  repeat' split
  all_goals simp

@[simp] theorem State.cancelFor_calendar (s : State) (r : PassRow) (w : PassStatus) : (s.cancelFor r w).calendar = s.calendar := by
  simp only [State.cancelFor]
  repeat' split
  all_goals simp

@[simp] theorem State.cancelFor_lanes (s : State) (r : PassRow) (w : PassStatus) : (s.cancelFor r w).lanes = s.lanes := by
  simp only [State.cancelFor]
  repeat' split
  all_goals simp

@[simp] theorem State.cancelFor_lifts (s : State) (r : PassRow) (w : PassStatus) : (s.cancelFor r w).lifts = s.lifts := by
  simp only [State.cancelFor]
  repeat' split
  all_goals simp

@[simp] theorem State.cancelFor_journal (s : State) (r : PassRow) (w : PassStatus) : (s.cancelFor r w).journal = s.journal := by
  simp only [State.cancelFor]
  repeat' split
  all_goals simp

@[simp] theorem State.cancelFor_minimumPayout (s : State) (r : PassRow) (w : PassStatus) : (s.cancelFor r w).minimumPayout = s.minimumPayout := by
  simp only [State.cancelFor]
  repeat' split
  all_goals simp

@[simp] theorem State.cancelFor_stream (s : State) (r : PassRow) (w : PassStatus) : (s.cancelFor r w).stream = s.stream := by
  simp only [State.cancelFor]
  repeat' split
  all_goals simp

@[simp] theorem State.cancelFor_timebase (s : State) (r : PassRow) (w : PassStatus) : (s.cancelFor r w).timebase = s.timebase := by
  simp only [State.cancelFor]
  repeat' split
  all_goals simp

@[simp] theorem State.cancelFor_resetLine (s : State) (r : PassRow) (w : PassStatus) : (s.cancelFor r w).resetLine = s.resetLine := by
  simp only [State.cancelFor]
  repeat' split
  all_goals simp

@[simp] theorem State.cancelFor_freeIndex (s : State) (r : PassRow) (w : PassStatus) : (s.cancelFor r w).freeIndex = s.freeIndex := by
  simp only [State.cancelFor]
  repeat' split
  all_goals simp

@[simp] theorem State.cancelFor_pending (s : State) (r : PassRow) (w : PassStatus) : (s.cancelFor r w).pending = s.pending := by
  simp only [State.cancelFor]
  repeat' split
  all_goals simp

@[simp] theorem State.cancelFor_lane (s : State) (r : PassRow) (w : PassStatus) (j : LaneNo) : (s.cancelFor r w).lane j = s.lane j := State.lane_ext (by simp) j

@[simp] theorem State.cancelFor_lift (s : State) (r : PassRow) (w : PassStatus) (j : LiftNo) : (s.cancelFor r w).lift j = s.lift j := State.lift_ext (by simp) j

@[simp] theorem State.cancelFor_product (s : State) (r : PassRow) (w : PassStatus) (j : ProductCode) : (s.cancelFor r w).product j = s.product j := State.product_ext (by simp) j

/-! ### `State.moveCount` -/

@[simp] theorem State.moveCount_trunk (s : State) (a b : ProductCode) : (s.moveCount a b).trunk = s.trunk := by
  simp only [State.moveCount]
  repeat' split
  all_goals simp

@[simp] theorem State.moveCount_routed (s : State) (a b : ProductCode) : (s.moveCount a b).routed = s.routed := by
  simp only [State.moveCount]
  repeat' split
  all_goals simp

@[simp] theorem State.moveCount_table (s : State) (a b : ProductCode) : (s.moveCount a b).table = s.table := by
  simp only [State.moveCount]
  repeat' split
  all_goals simp

@[simp] theorem State.moveCount_arbiter (s : State) (a b : ProductCode) : (s.moveCount a b).arbiter = s.arbiter := by
  simp only [State.moveCount]
  repeat' split
  all_goals simp

@[simp] theorem State.moveCount_protection (s : State) (a b : ProductCode) : (s.moveCount a b).protection = s.protection := by
  simp only [State.moveCount]
  repeat' split
  all_goals simp

@[simp] theorem State.moveCount_serviceKey (s : State) (a b : ProductCode) : (s.moveCount a b).serviceKey = s.serviceKey := by
  simp only [State.moveCount]
  repeat' split
  all_goals simp

@[simp] theorem State.moveCount_calendar (s : State) (a b : ProductCode) : (s.moveCount a b).calendar = s.calendar := by
  simp only [State.moveCount]
  repeat' split
  all_goals simp

@[simp] theorem State.moveCount_lanes (s : State) (a b : ProductCode) : (s.moveCount a b).lanes = s.lanes := by
  simp only [State.moveCount]
  repeat' split
  all_goals simp

@[simp] theorem State.moveCount_lifts (s : State) (a b : ProductCode) : (s.moveCount a b).lifts = s.lifts := by
  simp only [State.moveCount]
  repeat' split
  all_goals simp

@[simp] theorem State.moveCount_journal (s : State) (a b : ProductCode) : (s.moveCount a b).journal = s.journal := by
  simp only [State.moveCount]
  repeat' split
  all_goals simp

@[simp] theorem State.moveCount_minimumPayout (s : State) (a b : ProductCode) : (s.moveCount a b).minimumPayout = s.minimumPayout := by
  simp only [State.moveCount]
  repeat' split
  all_goals simp

@[simp] theorem State.moveCount_stream (s : State) (a b : ProductCode) : (s.moveCount a b).stream = s.stream := by
  simp only [State.moveCount]
  repeat' split
  all_goals simp

@[simp] theorem State.moveCount_timebase (s : State) (a b : ProductCode) : (s.moveCount a b).timebase = s.timebase := by
  simp only [State.moveCount]
  repeat' split
  all_goals simp

@[simp] theorem State.moveCount_resetLine (s : State) (a b : ProductCode) : (s.moveCount a b).resetLine = s.resetLine := by
  simp only [State.moveCount]
  repeat' split
  all_goals simp

@[simp] theorem State.moveCount_freeIndex (s : State) (a b : ProductCode) : (s.moveCount a b).freeIndex = s.freeIndex := by
  simp only [State.moveCount]
  repeat' split
  all_goals simp

@[simp] theorem State.moveCount_pending (s : State) (a b : ProductCode) : (s.moveCount a b).pending = s.pending := by
  simp only [State.moveCount]
  repeat' split
  all_goals simp

@[simp] theorem State.moveCount_lane (s : State) (a b : ProductCode) (j : LaneNo) : (s.moveCount a b).lane j = s.lane j := State.lane_ext (by simp) j

@[simp] theorem State.moveCount_lift (s : State) (a b : ProductCode) (j : LiftNo) : (s.moveCount a b).lift j = s.lift j := State.lift_ext (by simp) j

/-! ### `State.insertByPut` -/

@[simp] theorem State.insertByPut_trunk (s : State) (f : PassForm) : ((s.insertByPut f).2).trunk = s.trunk := by
  simp only [State.insertByPut]
  repeat' split
  all_goals simp

@[simp] theorem State.insertByPut_routed (s : State) (f : PassForm) : ((s.insertByPut f).2).routed = s.routed := by
  simp only [State.insertByPut]
  repeat' split
  all_goals simp

@[simp] theorem State.insertByPut_arbiter (s : State) (f : PassForm) : ((s.insertByPut f).2).arbiter = s.arbiter := by
  simp only [State.insertByPut]
  repeat' split
  all_goals simp

@[simp] theorem State.insertByPut_protection (s : State) (f : PassForm) : ((s.insertByPut f).2).protection = s.protection := by
  simp only [State.insertByPut]
  repeat' split
  all_goals simp

@[simp] theorem State.insertByPut_serviceKey (s : State) (f : PassForm) : ((s.insertByPut f).2).serviceKey = s.serviceKey := by
  simp only [State.insertByPut]
  repeat' split
  all_goals simp

@[simp] theorem State.insertByPut_calendar (s : State) (f : PassForm) : ((s.insertByPut f).2).calendar = s.calendar := by
  simp only [State.insertByPut]
  repeat' split
  all_goals simp

@[simp] theorem State.insertByPut_lanes (s : State) (f : PassForm) : ((s.insertByPut f).2).lanes = s.lanes := by
  simp only [State.insertByPut]
  repeat' split
  all_goals simp

@[simp] theorem State.insertByPut_lifts (s : State) (f : PassForm) : ((s.insertByPut f).2).lifts = s.lifts := by
  simp only [State.insertByPut]
  repeat' split
  all_goals simp

@[simp] theorem State.insertByPut_journal (s : State) (f : PassForm) : ((s.insertByPut f).2).journal = s.journal := by
  simp only [State.insertByPut]
  repeat' split
  all_goals simp

@[simp] theorem State.insertByPut_minimumPayout (s : State) (f : PassForm) : ((s.insertByPut f).2).minimumPayout = s.minimumPayout := by
  simp only [State.insertByPut]
  repeat' split
  all_goals simp

@[simp] theorem State.insertByPut_stream (s : State) (f : PassForm) : ((s.insertByPut f).2).stream = s.stream := by
  simp only [State.insertByPut]
  repeat' split
  all_goals simp

@[simp] theorem State.insertByPut_timebase (s : State) (f : PassForm) : ((s.insertByPut f).2).timebase = s.timebase := by
  simp only [State.insertByPut]
  repeat' split
  all_goals simp

@[simp] theorem State.insertByPut_resetLine (s : State) (f : PassForm) : ((s.insertByPut f).2).resetLine = s.resetLine := by
  simp only [State.insertByPut]
  repeat' split
  all_goals simp

@[simp] theorem State.insertByPut_freeIndex (s : State) (f : PassForm) : ((s.insertByPut f).2).freeIndex = s.freeIndex := by
  simp only [State.insertByPut]
  repeat' split
  all_goals simp

@[simp] theorem State.insertByPut_pending (s : State) (f : PassForm) : ((s.insertByPut f).2).pending = s.pending := by
  simp only [State.insertByPut]
  repeat' split
  all_goals simp

@[simp] theorem State.insertByPut_lane (s : State) (f : PassForm) (j : LaneNo) : ((s.insertByPut f).2).lane j = s.lane j := State.lane_ext (by simp) j

@[simp] theorem State.insertByPut_lift (s : State) (f : PassForm) (j : LiftNo) : ((s.insertByPut f).2).lift j = s.lift j := State.lift_ext (by simp) j

/-! ### `State.updateByPut` -/

@[simp] theorem State.updateByPut_trunk (s : State) (f : PassForm) (k : Nat) (row : PassRow) : ((s.updateByPut f k row).2).trunk = s.trunk := by
  simp only [State.updateByPut]
  repeat' split
  all_goals simp

@[simp] theorem State.updateByPut_routed (s : State) (f : PassForm) (k : Nat) (row : PassRow) : ((s.updateByPut f k row).2).routed = s.routed := by
  simp only [State.updateByPut]
  repeat' split
  all_goals simp

@[simp] theorem State.updateByPut_arbiter (s : State) (f : PassForm) (k : Nat) (row : PassRow) : ((s.updateByPut f k row).2).arbiter = s.arbiter := by
  simp only [State.updateByPut]
  repeat' split
  all_goals simp

@[simp] theorem State.updateByPut_protection (s : State) (f : PassForm) (k : Nat) (row : PassRow) : ((s.updateByPut f k row).2).protection = s.protection := by
  simp only [State.updateByPut]
  repeat' split
  all_goals simp

@[simp] theorem State.updateByPut_serviceKey (s : State) (f : PassForm) (k : Nat) (row : PassRow) : ((s.updateByPut f k row).2).serviceKey = s.serviceKey := by
  simp only [State.updateByPut]
  repeat' split
  all_goals simp

@[simp] theorem State.updateByPut_calendar (s : State) (f : PassForm) (k : Nat) (row : PassRow) : ((s.updateByPut f k row).2).calendar = s.calendar := by
  simp only [State.updateByPut]
  repeat' split
  all_goals simp

@[simp] theorem State.updateByPut_lanes (s : State) (f : PassForm) (k : Nat) (row : PassRow) : ((s.updateByPut f k row).2).lanes = s.lanes := by
  simp only [State.updateByPut]
  repeat' split
  all_goals simp

@[simp] theorem State.updateByPut_lifts (s : State) (f : PassForm) (k : Nat) (row : PassRow) : ((s.updateByPut f k row).2).lifts = s.lifts := by
  simp only [State.updateByPut]
  repeat' split
  all_goals simp

@[simp] theorem State.updateByPut_journal (s : State) (f : PassForm) (k : Nat) (row : PassRow) : ((s.updateByPut f k row).2).journal = s.journal := by
  simp only [State.updateByPut]
  repeat' split
  all_goals simp

@[simp] theorem State.updateByPut_minimumPayout (s : State) (f : PassForm) (k : Nat) (row : PassRow) : ((s.updateByPut f k row).2).minimumPayout = s.minimumPayout := by
  simp only [State.updateByPut]
  repeat' split
  all_goals simp

@[simp] theorem State.updateByPut_stream (s : State) (f : PassForm) (k : Nat) (row : PassRow) : ((s.updateByPut f k row).2).stream = s.stream := by
  simp only [State.updateByPut]
  repeat' split
  all_goals simp

@[simp] theorem State.updateByPut_timebase (s : State) (f : PassForm) (k : Nat) (row : PassRow) : ((s.updateByPut f k row).2).timebase = s.timebase := by
  simp only [State.updateByPut]
  repeat' split
  all_goals simp

@[simp] theorem State.updateByPut_resetLine (s : State) (f : PassForm) (k : Nat) (row : PassRow) : ((s.updateByPut f k row).2).resetLine = s.resetLine := by
  simp only [State.updateByPut]
  repeat' split
  all_goals simp

@[simp] theorem State.updateByPut_freeIndex (s : State) (f : PassForm) (k : Nat) (row : PassRow) : ((s.updateByPut f k row).2).freeIndex = s.freeIndex := by
  simp only [State.updateByPut]
  repeat' split
  all_goals simp

@[simp] theorem State.updateByPut_pending (s : State) (f : PassForm) (k : Nat) (row : PassRow) : ((s.updateByPut f k row).2).pending = s.pending := by
  simp only [State.updateByPut]
  repeat' split
  all_goals simp

@[simp] theorem State.updateByPut_lane (s : State) (f : PassForm) (k : Nat) (row : PassRow) (j : LaneNo) : ((s.updateByPut f k row).2).lane j = s.lane j := State.lane_ext (by simp) j

@[simp] theorem State.updateByPut_lift (s : State) (f : PassForm) (k : Nat) (row : PassRow) (j : LiftNo) : ((s.updateByPut f k row).2).lift j = s.lift j := State.lift_ext (by simp) j

/-! ### `State.putRow` -/

@[simp] theorem State.putRow_trunk (s : State) (f : PassForm) : ((s.putRow f).2).trunk = s.trunk := by
  simp only [State.putRow]
  repeat' split
  all_goals simp

@[simp] theorem State.putRow_routed (s : State) (f : PassForm) : ((s.putRow f).2).routed = s.routed := by
  simp only [State.putRow]
  repeat' split
  all_goals simp

@[simp] theorem State.putRow_arbiter (s : State) (f : PassForm) : ((s.putRow f).2).arbiter = s.arbiter := by
  simp only [State.putRow]
  repeat' split
  all_goals simp

@[simp] theorem State.putRow_protection (s : State) (f : PassForm) : ((s.putRow f).2).protection = s.protection := by
  simp only [State.putRow]
  repeat' split
  all_goals simp

@[simp] theorem State.putRow_serviceKey (s : State) (f : PassForm) : ((s.putRow f).2).serviceKey = s.serviceKey := by
  simp only [State.putRow]
  repeat' split
  all_goals simp

@[simp] theorem State.putRow_calendar (s : State) (f : PassForm) : ((s.putRow f).2).calendar = s.calendar := by
  simp only [State.putRow]
  repeat' split
  all_goals simp

@[simp] theorem State.putRow_lanes (s : State) (f : PassForm) : ((s.putRow f).2).lanes = s.lanes := by
  simp only [State.putRow]
  repeat' split
  all_goals simp

@[simp] theorem State.putRow_lifts (s : State) (f : PassForm) : ((s.putRow f).2).lifts = s.lifts := by
  simp only [State.putRow]
  repeat' split
  all_goals simp

@[simp] theorem State.putRow_journal (s : State) (f : PassForm) : ((s.putRow f).2).journal = s.journal := by
  simp only [State.putRow]
  repeat' split
  all_goals simp

@[simp] theorem State.putRow_minimumPayout (s : State) (f : PassForm) : ((s.putRow f).2).minimumPayout = s.minimumPayout := by
  simp only [State.putRow]
  repeat' split
  all_goals simp

@[simp] theorem State.putRow_stream (s : State) (f : PassForm) : ((s.putRow f).2).stream = s.stream := by
  simp only [State.putRow]
  repeat' split
  all_goals simp

@[simp] theorem State.putRow_timebase (s : State) (f : PassForm) : ((s.putRow f).2).timebase = s.timebase := by
  simp only [State.putRow]
  repeat' split
  all_goals simp

@[simp] theorem State.putRow_resetLine (s : State) (f : PassForm) : ((s.putRow f).2).resetLine = s.resetLine := by
  simp only [State.putRow]
  repeat' split
  all_goals simp

@[simp] theorem State.putRow_freeIndex (s : State) (f : PassForm) : ((s.putRow f).2).freeIndex = s.freeIndex := by
  simp only [State.putRow]
  repeat' split
  all_goals simp

@[simp] theorem State.putRow_pending (s : State) (f : PassForm) : ((s.putRow f).2).pending = s.pending := by
  simp only [State.putRow]
  repeat' split
  all_goals simp

@[simp] theorem State.putRow_lane (s : State) (f : PassForm) (j : LaneNo) : ((s.putRow f).2).lane j = s.lane j := State.lane_ext (by simp) j

@[simp] theorem State.putRow_lift (s : State) (f : PassForm) (j : LiftNo) : ((s.putRow f).2).lift j = s.lift j := State.lift_ext (by simp) j

/-! ### `State.putUnlessRefused` -/

@[simp] theorem State.putUnlessRefused_trunk (s : State) (f : PassForm) (c : Option ReplyCode) : ((s.putUnlessRefused f c).2).trunk = s.trunk := by cases c <;> simp [State.putUnlessRefused]

@[simp] theorem State.putUnlessRefused_routed (s : State) (f : PassForm) (c : Option ReplyCode) : ((s.putUnlessRefused f c).2).routed = s.routed := by cases c <;> simp [State.putUnlessRefused]

@[simp] theorem State.putUnlessRefused_arbiter (s : State) (f : PassForm) (c : Option ReplyCode) : ((s.putUnlessRefused f c).2).arbiter = s.arbiter := by cases c <;> simp [State.putUnlessRefused]

@[simp] theorem State.putUnlessRefused_protection (s : State) (f : PassForm) (c : Option ReplyCode) : ((s.putUnlessRefused f c).2).protection = s.protection := by cases c <;> simp [State.putUnlessRefused]

@[simp] theorem State.putUnlessRefused_serviceKey (s : State) (f : PassForm) (c : Option ReplyCode) : ((s.putUnlessRefused f c).2).serviceKey = s.serviceKey := by cases c <;> simp [State.putUnlessRefused]

@[simp] theorem State.putUnlessRefused_calendar (s : State) (f : PassForm) (c : Option ReplyCode) : ((s.putUnlessRefused f c).2).calendar = s.calendar := by cases c <;> simp [State.putUnlessRefused]

@[simp] theorem State.putUnlessRefused_lanes (s : State) (f : PassForm) (c : Option ReplyCode) : ((s.putUnlessRefused f c).2).lanes = s.lanes := by cases c <;> simp [State.putUnlessRefused]

@[simp] theorem State.putUnlessRefused_lifts (s : State) (f : PassForm) (c : Option ReplyCode) : ((s.putUnlessRefused f c).2).lifts = s.lifts := by cases c <;> simp [State.putUnlessRefused]

@[simp] theorem State.putUnlessRefused_journal (s : State) (f : PassForm) (c : Option ReplyCode) : ((s.putUnlessRefused f c).2).journal = s.journal := by cases c <;> simp [State.putUnlessRefused]

@[simp] theorem State.putUnlessRefused_minimumPayout (s : State) (f : PassForm) (c : Option ReplyCode) : ((s.putUnlessRefused f c).2).minimumPayout = s.minimumPayout := by cases c <;> simp [State.putUnlessRefused]

@[simp] theorem State.putUnlessRefused_stream (s : State) (f : PassForm) (c : Option ReplyCode) : ((s.putUnlessRefused f c).2).stream = s.stream := by cases c <;> simp [State.putUnlessRefused]

@[simp] theorem State.putUnlessRefused_timebase (s : State) (f : PassForm) (c : Option ReplyCode) : ((s.putUnlessRefused f c).2).timebase = s.timebase := by cases c <;> simp [State.putUnlessRefused]

@[simp] theorem State.putUnlessRefused_resetLine (s : State) (f : PassForm) (c : Option ReplyCode) : ((s.putUnlessRefused f c).2).resetLine = s.resetLine := by cases c <;> simp [State.putUnlessRefused]

@[simp] theorem State.putUnlessRefused_freeIndex (s : State) (f : PassForm) (c : Option ReplyCode) : ((s.putUnlessRefused f c).2).freeIndex = s.freeIndex := by cases c <;> simp [State.putUnlessRefused]

@[simp] theorem State.putUnlessRefused_pending (s : State) (f : PassForm) (c : Option ReplyCode) : ((s.putUnlessRefused f c).2).pending = s.pending := by cases c <;> simp [State.putUnlessRefused]

@[simp] theorem State.putUnlessRefused_lane (s : State) (f : PassForm) (c : Option ReplyCode) (j : LaneNo) : ((s.putUnlessRefused f c).2).lane j = s.lane j := State.lane_ext (by simp) j

@[simp] theorem State.putUnlessRefused_lift (s : State) (f : PassForm) (c : Option ReplyCode) (j : LiftNo) : ((s.putUnlessRefused f c).2).lift j = s.lift j := State.lift_ext (by simp) j

/-! ### `State.applyPut` -/

@[simp] theorem State.applyPut_trunk (s : State) (f : PassForm) : ((s.applyPut f).2).trunk = s.trunk := by
  simp [State.applyPut]

@[simp] theorem State.applyPut_routed (s : State) (f : PassForm) : ((s.applyPut f).2).routed = s.routed := by
  simp [State.applyPut]

@[simp] theorem State.applyPut_arbiter (s : State) (f : PassForm) : ((s.applyPut f).2).arbiter = s.arbiter := by
  simp [State.applyPut]

@[simp] theorem State.applyPut_protection (s : State) (f : PassForm) : ((s.applyPut f).2).protection = s.protection := by
  simp [State.applyPut]

@[simp] theorem State.applyPut_serviceKey (s : State) (f : PassForm) : ((s.applyPut f).2).serviceKey = s.serviceKey := by
  simp [State.applyPut]

@[simp] theorem State.applyPut_calendar (s : State) (f : PassForm) : ((s.applyPut f).2).calendar = s.calendar := by
  simp [State.applyPut]

@[simp] theorem State.applyPut_lanes (s : State) (f : PassForm) : ((s.applyPut f).2).lanes = s.lanes := by
  simp [State.applyPut]

@[simp] theorem State.applyPut_lifts (s : State) (f : PassForm) : ((s.applyPut f).2).lifts = s.lifts := by
  simp [State.applyPut]

@[simp] theorem State.applyPut_journal (s : State) (f : PassForm) : ((s.applyPut f).2).journal = s.journal := by
  simp [State.applyPut]

@[simp] theorem State.applyPut_minimumPayout (s : State) (f : PassForm) : ((s.applyPut f).2).minimumPayout = s.minimumPayout := by
  simp [State.applyPut]

@[simp] theorem State.applyPut_stream (s : State) (f : PassForm) : ((s.applyPut f).2).stream = s.stream := by
  simp [State.applyPut]

@[simp] theorem State.applyPut_timebase (s : State) (f : PassForm) : ((s.applyPut f).2).timebase = s.timebase := by
  simp [State.applyPut]

@[simp] theorem State.applyPut_resetLine (s : State) (f : PassForm) : ((s.applyPut f).2).resetLine = s.resetLine := by
  simp [State.applyPut]

@[simp] theorem State.applyPut_freeIndex (s : State) (f : PassForm) : ((s.applyPut f).2).freeIndex = s.freeIndex := by
  simp [State.applyPut]

@[simp] theorem State.applyPut_pending (s : State) (f : PassForm) : ((s.applyPut f).2).pending = s.pending := by
  simp [State.applyPut]

@[simp] theorem State.applyPut_lane (s : State) (f : PassForm) (j : LaneNo) : ((s.applyPut f).2).lane j = s.lane j := State.lane_ext (by simp) j

@[simp] theorem State.applyPut_lift (s : State) (f : PassForm) (j : LiftNo) : ((s.applyPut f).2).lift j = s.lift j := State.lift_ext (by simp) j

/-! ### `State.setStatus` -/

@[simp] theorem State.setStatus_trunk (s : State) (k : Nat) (row : PassRow) (w : PassStatus) : ((s.setStatus k row w).2).trunk = s.trunk := by
  simp only [State.setStatus]
  repeat' split
  all_goals simp

@[simp] theorem State.setStatus_routed (s : State) (k : Nat) (row : PassRow) (w : PassStatus) : ((s.setStatus k row w).2).routed = s.routed := by
  simp only [State.setStatus]
  repeat' split
  all_goals simp

@[simp] theorem State.setStatus_arbiter (s : State) (k : Nat) (row : PassRow) (w : PassStatus) : ((s.setStatus k row w).2).arbiter = s.arbiter := by
  simp only [State.setStatus]
  repeat' split
  all_goals simp

@[simp] theorem State.setStatus_products (s : State) (k : Nat) (row : PassRow) (w : PassStatus) : ((s.setStatus k row w).2).products = s.products := by
  simp only [State.setStatus]
  repeat' split
  all_goals simp

@[simp] theorem State.setStatus_protection (s : State) (k : Nat) (row : PassRow) (w : PassStatus) : ((s.setStatus k row w).2).protection = s.protection := by
  simp only [State.setStatus]
  repeat' split
  all_goals simp

@[simp] theorem State.setStatus_serviceKey (s : State) (k : Nat) (row : PassRow) (w : PassStatus) : ((s.setStatus k row w).2).serviceKey = s.serviceKey := by
  simp only [State.setStatus]
  repeat' split
  all_goals simp

@[simp] theorem State.setStatus_calendar (s : State) (k : Nat) (row : PassRow) (w : PassStatus) : ((s.setStatus k row w).2).calendar = s.calendar := by
  simp only [State.setStatus]
  repeat' split
  all_goals simp

@[simp] theorem State.setStatus_lanes (s : State) (k : Nat) (row : PassRow) (w : PassStatus) : ((s.setStatus k row w).2).lanes = s.lanes := by
  simp only [State.setStatus]
  repeat' split
  all_goals simp

@[simp] theorem State.setStatus_lifts (s : State) (k : Nat) (row : PassRow) (w : PassStatus) : ((s.setStatus k row w).2).lifts = s.lifts := by
  simp only [State.setStatus]
  repeat' split
  all_goals simp

@[simp] theorem State.setStatus_journal (s : State) (k : Nat) (row : PassRow) (w : PassStatus) : ((s.setStatus k row w).2).journal = s.journal := by
  simp only [State.setStatus]
  repeat' split
  all_goals simp

@[simp] theorem State.setStatus_minimumPayout (s : State) (k : Nat) (row : PassRow) (w : PassStatus) : ((s.setStatus k row w).2).minimumPayout = s.minimumPayout := by
  simp only [State.setStatus]
  repeat' split
  all_goals simp

@[simp] theorem State.setStatus_stream (s : State) (k : Nat) (row : PassRow) (w : PassStatus) : ((s.setStatus k row w).2).stream = s.stream := by
  simp only [State.setStatus]
  repeat' split
  all_goals simp

@[simp] theorem State.setStatus_timebase (s : State) (k : Nat) (row : PassRow) (w : PassStatus) : ((s.setStatus k row w).2).timebase = s.timebase := by
  simp only [State.setStatus]
  repeat' split
  all_goals simp

@[simp] theorem State.setStatus_resetLine (s : State) (k : Nat) (row : PassRow) (w : PassStatus) : ((s.setStatus k row w).2).resetLine = s.resetLine := by
  simp only [State.setStatus]
  repeat' split
  all_goals simp

@[simp] theorem State.setStatus_freeIndex (s : State) (k : Nat) (row : PassRow) (w : PassStatus) : ((s.setStatus k row w).2).freeIndex = s.freeIndex := by
  simp only [State.setStatus]
  repeat' split
  all_goals simp

@[simp] theorem State.setStatus_pending (s : State) (k : Nat) (row : PassRow) (w : PassStatus) : ((s.setStatus k row w).2).pending = s.pending := by
  simp only [State.setStatus]
  repeat' split
  all_goals simp

@[simp] theorem State.setStatus_lane (s : State) (k : Nat) (row : PassRow) (w : PassStatus) (j : LaneNo) : ((s.setStatus k row w).2).lane j = s.lane j := State.lane_ext (by simp) j

@[simp] theorem State.setStatus_lift (s : State) (k : Nat) (row : PassRow) (w : PassStatus) (j : LiftNo) : ((s.setStatus k row w).2).lift j = s.lift j := State.lift_ext (by simp) j

@[simp] theorem State.setStatus_product (s : State) (k : Nat) (row : PassRow) (w : PassStatus) (j : ProductCode) : ((s.setStatus k row w).2).product j = s.product j := State.product_ext (by simp) j

/-! ### `State.applySetStatus` -/

@[simp] theorem State.applySetStatus_trunk (s : State) (u : Uid) (n : Nat) : ((s.applySetStatus u n).2).trunk = s.trunk := by
  simp only [State.applySetStatus]
  repeat' split
  all_goals simp

@[simp] theorem State.applySetStatus_routed (s : State) (u : Uid) (n : Nat) : ((s.applySetStatus u n).2).routed = s.routed := by
  simp only [State.applySetStatus]
  repeat' split
  all_goals simp

@[simp] theorem State.applySetStatus_arbiter (s : State) (u : Uid) (n : Nat) : ((s.applySetStatus u n).2).arbiter = s.arbiter := by
  simp only [State.applySetStatus]
  repeat' split
  all_goals simp

@[simp] theorem State.applySetStatus_products (s : State) (u : Uid) (n : Nat) : ((s.applySetStatus u n).2).products = s.products := by
  simp only [State.applySetStatus]
  repeat' split
  all_goals simp

@[simp] theorem State.applySetStatus_protection (s : State) (u : Uid) (n : Nat) : ((s.applySetStatus u n).2).protection = s.protection := by
  simp only [State.applySetStatus]
  repeat' split
  all_goals simp

@[simp] theorem State.applySetStatus_serviceKey (s : State) (u : Uid) (n : Nat) : ((s.applySetStatus u n).2).serviceKey = s.serviceKey := by
  simp only [State.applySetStatus]
  repeat' split
  all_goals simp

@[simp] theorem State.applySetStatus_calendar (s : State) (u : Uid) (n : Nat) : ((s.applySetStatus u n).2).calendar = s.calendar := by
  simp only [State.applySetStatus]
  repeat' split
  all_goals simp

@[simp] theorem State.applySetStatus_lanes (s : State) (u : Uid) (n : Nat) : ((s.applySetStatus u n).2).lanes = s.lanes := by
  simp only [State.applySetStatus]
  repeat' split
  all_goals simp

@[simp] theorem State.applySetStatus_lifts (s : State) (u : Uid) (n : Nat) : ((s.applySetStatus u n).2).lifts = s.lifts := by
  simp only [State.applySetStatus]
  repeat' split
  all_goals simp

@[simp] theorem State.applySetStatus_journal (s : State) (u : Uid) (n : Nat) : ((s.applySetStatus u n).2).journal = s.journal := by
  simp only [State.applySetStatus]
  repeat' split
  all_goals simp

@[simp] theorem State.applySetStatus_minimumPayout (s : State) (u : Uid) (n : Nat) : ((s.applySetStatus u n).2).minimumPayout = s.minimumPayout := by
  simp only [State.applySetStatus]
  repeat' split
  all_goals simp

@[simp] theorem State.applySetStatus_stream (s : State) (u : Uid) (n : Nat) : ((s.applySetStatus u n).2).stream = s.stream := by
  simp only [State.applySetStatus]
  repeat' split
  all_goals simp

@[simp] theorem State.applySetStatus_timebase (s : State) (u : Uid) (n : Nat) : ((s.applySetStatus u n).2).timebase = s.timebase := by
  simp only [State.applySetStatus]
  repeat' split
  all_goals simp

@[simp] theorem State.applySetStatus_resetLine (s : State) (u : Uid) (n : Nat) : ((s.applySetStatus u n).2).resetLine = s.resetLine := by
  simp only [State.applySetStatus]
  repeat' split
  all_goals simp

@[simp] theorem State.applySetStatus_freeIndex (s : State) (u : Uid) (n : Nat) : ((s.applySetStatus u n).2).freeIndex = s.freeIndex := by
  simp only [State.applySetStatus]
  repeat' split
  all_goals simp

@[simp] theorem State.applySetStatus_pending (s : State) (u : Uid) (n : Nat) : ((s.applySetStatus u n).2).pending = s.pending := by
  simp only [State.applySetStatus]
  repeat' split
  all_goals simp

@[simp] theorem State.applySetStatus_lane (s : State) (u : Uid) (n : Nat) (j : LaneNo) : ((s.applySetStatus u n).2).lane j = s.lane j := State.lane_ext (by simp) j

@[simp] theorem State.applySetStatus_lift (s : State) (u : Uid) (n : Nat) (j : LiftNo) : ((s.applySetStatus u n).2).lift j = s.lift j := State.lift_ext (by simp) j

@[simp] theorem State.applySetStatus_product (s : State) (u : Uid) (n : Nat) (j : ProductCode) : ((s.applySetStatus u n).2).product j = s.product j := State.product_ext (by simp) j

/-! ### `State.applyDelete` -/

@[simp] theorem State.applyDelete_trunk (s : State) (u : Uid) : ((s.applyDelete u).2).trunk = s.trunk := by
  simp only [State.applyDelete]
  repeat' split
  all_goals simp

@[simp] theorem State.applyDelete_routed (s : State) (u : Uid) : ((s.applyDelete u).2).routed = s.routed := by
  simp only [State.applyDelete]
  repeat' split
  all_goals simp

@[simp] theorem State.applyDelete_arbiter (s : State) (u : Uid) : ((s.applyDelete u).2).arbiter = s.arbiter := by
  simp only [State.applyDelete]
  repeat' split
  all_goals simp

@[simp] theorem State.applyDelete_protection (s : State) (u : Uid) : ((s.applyDelete u).2).protection = s.protection := by
  simp only [State.applyDelete]
  repeat' split
  all_goals simp

@[simp] theorem State.applyDelete_serviceKey (s : State) (u : Uid) : ((s.applyDelete u).2).serviceKey = s.serviceKey := by
  simp only [State.applyDelete]
  repeat' split
  all_goals simp

@[simp] theorem State.applyDelete_calendar (s : State) (u : Uid) : ((s.applyDelete u).2).calendar = s.calendar := by
  simp only [State.applyDelete]
  repeat' split
  all_goals simp

@[simp] theorem State.applyDelete_lanes (s : State) (u : Uid) : ((s.applyDelete u).2).lanes = s.lanes := by
  simp only [State.applyDelete]
  repeat' split
  all_goals simp

@[simp] theorem State.applyDelete_lifts (s : State) (u : Uid) : ((s.applyDelete u).2).lifts = s.lifts := by
  simp only [State.applyDelete]
  repeat' split
  all_goals simp

@[simp] theorem State.applyDelete_journal (s : State) (u : Uid) : ((s.applyDelete u).2).journal = s.journal := by
  simp only [State.applyDelete]
  repeat' split
  all_goals simp

@[simp] theorem State.applyDelete_minimumPayout (s : State) (u : Uid) : ((s.applyDelete u).2).minimumPayout = s.minimumPayout := by
  simp only [State.applyDelete]
  repeat' split
  all_goals simp

@[simp] theorem State.applyDelete_stream (s : State) (u : Uid) : ((s.applyDelete u).2).stream = s.stream := by
  simp only [State.applyDelete]
  repeat' split
  all_goals simp

@[simp] theorem State.applyDelete_timebase (s : State) (u : Uid) : ((s.applyDelete u).2).timebase = s.timebase := by
  simp only [State.applyDelete]
  repeat' split
  all_goals simp

@[simp] theorem State.applyDelete_resetLine (s : State) (u : Uid) : ((s.applyDelete u).2).resetLine = s.resetLine := by
  simp only [State.applyDelete]
  repeat' split
  all_goals simp

@[simp] theorem State.applyDelete_freeIndex (s : State) (u : Uid) : ((s.applyDelete u).2).freeIndex = s.freeIndex := by
  simp only [State.applyDelete]
  repeat' split
  all_goals simp

@[simp] theorem State.applyDelete_pending (s : State) (u : Uid) : ((s.applyDelete u).2).pending = s.pending := by
  simp only [State.applyDelete]
  repeat' split
  all_goals simp

@[simp] theorem State.applyDelete_lane (s : State) (u : Uid) (j : LaneNo) : ((s.applyDelete u).2).lane j = s.lane j := State.lane_ext (by simp) j

@[simp] theorem State.applyDelete_lift (s : State) (u : Uid) (j : LiftNo) : ((s.applyDelete u).2).lift j = s.lift j := State.lift_ext (by simp) j

/-! ### `State.commit` -/

@[simp] theorem State.commit_trunk (s : State) (l : LaneNo) (k : Nat) (u : Uid) (i : LiftNo) (st : Stamp) : (s.commit l k u i st).trunk = s.trunk := by
  simp only [State.commit]
  repeat' split
  all_goals simp

@[simp] theorem State.commit_routed (s : State) (l : LaneNo) (k : Nat) (u : Uid) (i : LiftNo) (st : Stamp) : (s.commit l k u i st).routed = s.routed := by
  simp only [State.commit]
  repeat' split
  all_goals simp

@[simp] theorem State.commit_arbiter (s : State) (l : LaneNo) (k : Nat) (u : Uid) (i : LiftNo) (st : Stamp) : (s.commit l k u i st).arbiter = s.arbiter := by
  simp only [State.commit]
  repeat' split
  all_goals simp

@[simp] theorem State.commit_products (s : State) (l : LaneNo) (k : Nat) (u : Uid) (i : LiftNo) (st : Stamp) : (s.commit l k u i st).products = s.products := by
  simp only [State.commit]
  repeat' split
  all_goals simp

@[simp] theorem State.commit_protection (s : State) (l : LaneNo) (k : Nat) (u : Uid) (i : LiftNo) (st : Stamp) : (s.commit l k u i st).protection = s.protection := by
  simp only [State.commit]
  repeat' split
  all_goals simp

@[simp] theorem State.commit_serviceKey (s : State) (l : LaneNo) (k : Nat) (u : Uid) (i : LiftNo) (st : Stamp) : (s.commit l k u i st).serviceKey = s.serviceKey := by
  simp only [State.commit]
  repeat' split
  all_goals simp

@[simp] theorem State.commit_calendar (s : State) (l : LaneNo) (k : Nat) (u : Uid) (i : LiftNo) (st : Stamp) : (s.commit l k u i st).calendar = s.calendar := by
  simp only [State.commit]
  repeat' split
  all_goals simp

@[simp] theorem State.commit_lanes (s : State) (l : LaneNo) (k : Nat) (u : Uid) (i : LiftNo) (st : Stamp) : (s.commit l k u i st).lanes = s.lanes := by
  simp only [State.commit]
  repeat' split
  all_goals simp

@[simp] theorem State.commit_lifts (s : State) (l : LaneNo) (k : Nat) (u : Uid) (i : LiftNo) (st : Stamp) : (s.commit l k u i st).lifts = s.lifts := by
  simp only [State.commit]
  repeat' split
  all_goals simp

@[simp] theorem State.commit_journal (s : State) (l : LaneNo) (k : Nat) (u : Uid) (i : LiftNo) (st : Stamp) : (s.commit l k u i st).journal = s.journal := by
  simp only [State.commit]
  repeat' split
  all_goals simp

@[simp] theorem State.commit_minimumPayout (s : State) (l : LaneNo) (k : Nat) (u : Uid) (i : LiftNo) (st : Stamp) : (s.commit l k u i st).minimumPayout = s.minimumPayout := by
  simp only [State.commit]
  repeat' split
  all_goals simp

@[simp] theorem State.commit_stream (s : State) (l : LaneNo) (k : Nat) (u : Uid) (i : LiftNo) (st : Stamp) : (s.commit l k u i st).stream = s.stream := by
  simp only [State.commit]
  repeat' split
  all_goals simp

@[simp] theorem State.commit_timebase (s : State) (l : LaneNo) (k : Nat) (u : Uid) (i : LiftNo) (st : Stamp) : (s.commit l k u i st).timebase = s.timebase := by
  simp only [State.commit]
  repeat' split
  all_goals simp

@[simp] theorem State.commit_resetLine (s : State) (l : LaneNo) (k : Nat) (u : Uid) (i : LiftNo) (st : Stamp) : (s.commit l k u i st).resetLine = s.resetLine := by
  simp only [State.commit]
  repeat' split
  all_goals simp

@[simp] theorem State.commit_freeIndex (s : State) (l : LaneNo) (k : Nat) (u : Uid) (i : LiftNo) (st : Stamp) : (s.commit l k u i st).freeIndex = s.freeIndex := by
  simp only [State.commit]
  repeat' split
  all_goals simp

@[simp] theorem State.commit_pending (s : State) (l : LaneNo) (k : Nat) (u : Uid) (i : LiftNo) (st : Stamp) : (s.commit l k u i st).pending = s.pending := by
  simp only [State.commit]
  repeat' split
  all_goals simp

@[simp] theorem State.commit_lane (s : State) (l : LaneNo) (k : Nat) (u : Uid) (i : LiftNo) (st : Stamp) (j : LaneNo) : (s.commit l k u i st).lane j = s.lane j := State.lane_ext (by simp) j

@[simp] theorem State.commit_lift (s : State) (l : LaneNo) (k : Nat) (u : Uid) (i : LiftNo) (st : Stamp) (j : LiftNo) : (s.commit l k u i st).lift j = s.lift j := State.lift_ext (by simp) j

@[simp] theorem State.commit_product (s : State) (l : LaneNo) (k : Nat) (u : Uid) (i : LiftNo) (st : Stamp) (j : ProductCode) : (s.commit l k u i st).product j = s.product j := State.product_ext (by simp) j

/-! ### `State.recordHead` -/

@[simp] theorem State.recordHead_trunk (s : State) (l : LaneNo) (k : Nat) (u : Uid) (n : Nat) (i : LiftNo) (st : Stamp) : (s.recordHead l k u n i st).trunk = s.trunk := by
  simp only [State.recordHead]
  repeat' split
  all_goals simp

@[simp] theorem State.recordHead_routed (s : State) (l : LaneNo) (k : Nat) (u : Uid) (n : Nat) (i : LiftNo) (st : Stamp) : (s.recordHead l k u n i st).routed = s.routed := by
  simp only [State.recordHead]
  repeat' split
  all_goals simp

@[simp] theorem State.recordHead_arbiter (s : State) (l : LaneNo) (k : Nat) (u : Uid) (n : Nat) (i : LiftNo) (st : Stamp) : (s.recordHead l k u n i st).arbiter = s.arbiter := by
  simp only [State.recordHead]
  repeat' split
  all_goals simp

@[simp] theorem State.recordHead_products (s : State) (l : LaneNo) (k : Nat) (u : Uid) (n : Nat) (i : LiftNo) (st : Stamp) : (s.recordHead l k u n i st).products = s.products := by
  simp only [State.recordHead]
  repeat' split
  all_goals simp

@[simp] theorem State.recordHead_protection (s : State) (l : LaneNo) (k : Nat) (u : Uid) (n : Nat) (i : LiftNo) (st : Stamp) : (s.recordHead l k u n i st).protection = s.protection := by
  simp only [State.recordHead]
  repeat' split
  all_goals simp

@[simp] theorem State.recordHead_serviceKey (s : State) (l : LaneNo) (k : Nat) (u : Uid) (n : Nat) (i : LiftNo) (st : Stamp) : (s.recordHead l k u n i st).serviceKey = s.serviceKey := by
  simp only [State.recordHead]
  repeat' split
  all_goals simp

@[simp] theorem State.recordHead_calendar (s : State) (l : LaneNo) (k : Nat) (u : Uid) (n : Nat) (i : LiftNo) (st : Stamp) : (s.recordHead l k u n i st).calendar = s.calendar := by
  simp only [State.recordHead]
  repeat' split
  all_goals simp

@[simp] theorem State.recordHead_lanes (s : State) (l : LaneNo) (k : Nat) (u : Uid) (n : Nat) (i : LiftNo) (st : Stamp) : (s.recordHead l k u n i st).lanes = s.lanes := by
  simp only [State.recordHead]
  repeat' split
  all_goals simp

@[simp] theorem State.recordHead_lifts (s : State) (l : LaneNo) (k : Nat) (u : Uid) (n : Nat) (i : LiftNo) (st : Stamp) : (s.recordHead l k u n i st).lifts = s.lifts := by
  simp only [State.recordHead]
  repeat' split
  all_goals simp

@[simp] theorem State.recordHead_journal (s : State) (l : LaneNo) (k : Nat) (u : Uid) (n : Nat) (i : LiftNo) (st : Stamp) : (s.recordHead l k u n i st).journal = s.journal := by
  simp only [State.recordHead]
  repeat' split
  all_goals simp

@[simp] theorem State.recordHead_minimumPayout (s : State) (l : LaneNo) (k : Nat) (u : Uid) (n : Nat) (i : LiftNo) (st : Stamp) : (s.recordHead l k u n i st).minimumPayout = s.minimumPayout := by
  simp only [State.recordHead]
  repeat' split
  all_goals simp

@[simp] theorem State.recordHead_stream (s : State) (l : LaneNo) (k : Nat) (u : Uid) (n : Nat) (i : LiftNo) (st : Stamp) : (s.recordHead l k u n i st).stream = s.stream := by
  simp only [State.recordHead]
  repeat' split
  all_goals simp

@[simp] theorem State.recordHead_timebase (s : State) (l : LaneNo) (k : Nat) (u : Uid) (n : Nat) (i : LiftNo) (st : Stamp) : (s.recordHead l k u n i st).timebase = s.timebase := by
  simp only [State.recordHead]
  repeat' split
  all_goals simp

@[simp] theorem State.recordHead_resetLine (s : State) (l : LaneNo) (k : Nat) (u : Uid) (n : Nat) (i : LiftNo) (st : Stamp) : (s.recordHead l k u n i st).resetLine = s.resetLine := by
  simp only [State.recordHead]
  repeat' split
  all_goals simp

@[simp] theorem State.recordHead_freeIndex (s : State) (l : LaneNo) (k : Nat) (u : Uid) (n : Nat) (i : LiftNo) (st : Stamp) : (s.recordHead l k u n i st).freeIndex = s.freeIndex := by
  simp only [State.recordHead]
  repeat' split
  all_goals simp

@[simp] theorem State.recordHead_pending (s : State) (l : LaneNo) (k : Nat) (u : Uid) (n : Nat) (i : LiftNo) (st : Stamp) : (s.recordHead l k u n i st).pending = s.pending := by
  simp only [State.recordHead]
  repeat' split
  all_goals simp

@[simp] theorem State.recordHead_lane (s : State) (l : LaneNo) (k : Nat) (u : Uid) (n : Nat) (i : LiftNo) (st : Stamp) (j : LaneNo) : (s.recordHead l k u n i st).lane j = s.lane j := State.lane_ext (by simp) j

@[simp] theorem State.recordHead_lift (s : State) (l : LaneNo) (k : Nat) (u : Uid) (n : Nat) (i : LiftNo) (st : Stamp) (j : LiftNo) : (s.recordHead l k u n i st).lift j = s.lift j := State.lift_ext (by simp) j

@[simp] theorem State.recordHead_product (s : State) (l : LaneNo) (k : Nat) (u : Uid) (n : Nat) (i : LiftNo) (st : Stamp) (j : ProductCode) : (s.recordHead l k u n i st).product j = s.product j := State.product_ext (by simp) j

/-! ### `State.closeRow` -/

@[simp] theorem State.closeRow_trunk (s : State) (l : LaneNo) (k : Nat) (u : Uid) : (s.closeRow l k u).trunk = s.trunk := by
  simp only [State.closeRow]
  repeat' split
  all_goals simp

@[simp] theorem State.closeRow_routed (s : State) (l : LaneNo) (k : Nat) (u : Uid) : (s.closeRow l k u).routed = s.routed := by
  simp only [State.closeRow]
  repeat' split
  all_goals simp

@[simp] theorem State.closeRow_arbiter (s : State) (l : LaneNo) (k : Nat) (u : Uid) : (s.closeRow l k u).arbiter = s.arbiter := by
  simp only [State.closeRow]
  repeat' split
  all_goals simp

@[simp] theorem State.closeRow_products (s : State) (l : LaneNo) (k : Nat) (u : Uid) : (s.closeRow l k u).products = s.products := by
  simp only [State.closeRow]
  repeat' split
  all_goals simp

@[simp] theorem State.closeRow_protection (s : State) (l : LaneNo) (k : Nat) (u : Uid) : (s.closeRow l k u).protection = s.protection := by
  simp only [State.closeRow]
  repeat' split
  all_goals simp

@[simp] theorem State.closeRow_serviceKey (s : State) (l : LaneNo) (k : Nat) (u : Uid) : (s.closeRow l k u).serviceKey = s.serviceKey := by
  simp only [State.closeRow]
  repeat' split
  all_goals simp

@[simp] theorem State.closeRow_calendar (s : State) (l : LaneNo) (k : Nat) (u : Uid) : (s.closeRow l k u).calendar = s.calendar := by
  simp only [State.closeRow]
  repeat' split
  all_goals simp

@[simp] theorem State.closeRow_lanes (s : State) (l : LaneNo) (k : Nat) (u : Uid) : (s.closeRow l k u).lanes = s.lanes := by
  simp only [State.closeRow]
  repeat' split
  all_goals simp

@[simp] theorem State.closeRow_lifts (s : State) (l : LaneNo) (k : Nat) (u : Uid) : (s.closeRow l k u).lifts = s.lifts := by
  simp only [State.closeRow]
  repeat' split
  all_goals simp

@[simp] theorem State.closeRow_journal (s : State) (l : LaneNo) (k : Nat) (u : Uid) : (s.closeRow l k u).journal = s.journal := by
  simp only [State.closeRow]
  repeat' split
  all_goals simp

@[simp] theorem State.closeRow_minimumPayout (s : State) (l : LaneNo) (k : Nat) (u : Uid) : (s.closeRow l k u).minimumPayout = s.minimumPayout := by
  simp only [State.closeRow]
  repeat' split
  all_goals simp

@[simp] theorem State.closeRow_stream (s : State) (l : LaneNo) (k : Nat) (u : Uid) : (s.closeRow l k u).stream = s.stream := by
  simp only [State.closeRow]
  repeat' split
  all_goals simp

@[simp] theorem State.closeRow_timebase (s : State) (l : LaneNo) (k : Nat) (u : Uid) : (s.closeRow l k u).timebase = s.timebase := by
  simp only [State.closeRow]
  repeat' split
  all_goals simp

@[simp] theorem State.closeRow_resetLine (s : State) (l : LaneNo) (k : Nat) (u : Uid) : (s.closeRow l k u).resetLine = s.resetLine := by
  simp only [State.closeRow]
  repeat' split
  all_goals simp

@[simp] theorem State.closeRow_freeIndex (s : State) (l : LaneNo) (k : Nat) (u : Uid) : (s.closeRow l k u).freeIndex = s.freeIndex := by
  simp only [State.closeRow]
  repeat' split
  all_goals simp

@[simp] theorem State.closeRow_pending (s : State) (l : LaneNo) (k : Nat) (u : Uid) : (s.closeRow l k u).pending = s.pending := by
  simp only [State.closeRow]
  repeat' split
  all_goals simp

@[simp] theorem State.closeRow_lane (s : State) (l : LaneNo) (k : Nat) (u : Uid) (j : LaneNo) : (s.closeRow l k u).lane j = s.lane j := State.lane_ext (by simp) j

@[simp] theorem State.closeRow_lift (s : State) (l : LaneNo) (k : Nat) (u : Uid) (j : LiftNo) : (s.closeRow l k u).lift j = s.lift j := State.lift_ext (by simp) j

@[simp] theorem State.closeRow_product (s : State) (l : LaneNo) (k : Nat) (u : Uid) (j : ProductCode) : (s.closeRow l k u).product j = s.product j := State.product_ext (by simp) j

/-! ### `State.retire` -/

@[simp] theorem State.retire_trunk (s : State) (c : RefundCase) : ((s.retire c).2.2).trunk = s.trunk := by
  simp only [State.retire]
  repeat' split
  all_goals simp

@[simp] theorem State.retire_routed (s : State) (c : RefundCase) : ((s.retire c).2.2).routed = s.routed := by
  simp only [State.retire]
  repeat' split
  all_goals simp

@[simp] theorem State.retire_arbiter (s : State) (c : RefundCase) : ((s.retire c).2.2).arbiter = s.arbiter := by
  simp only [State.retire]
  repeat' split
  all_goals simp

@[simp] theorem State.retire_products (s : State) (c : RefundCase) : ((s.retire c).2.2).products = s.products := by
  simp only [State.retire]
  repeat' split
  all_goals simp

@[simp] theorem State.retire_protection (s : State) (c : RefundCase) : ((s.retire c).2.2).protection = s.protection := by
  simp only [State.retire]
  repeat' split
  all_goals simp

@[simp] theorem State.retire_serviceKey (s : State) (c : RefundCase) : ((s.retire c).2.2).serviceKey = s.serviceKey := by
  simp only [State.retire]
  repeat' split
  all_goals simp

@[simp] theorem State.retire_calendar (s : State) (c : RefundCase) : ((s.retire c).2.2).calendar = s.calendar := by
  simp only [State.retire]
  repeat' split
  all_goals simp

@[simp] theorem State.retire_lanes (s : State) (c : RefundCase) : ((s.retire c).2.2).lanes = s.lanes := by
  simp only [State.retire]
  repeat' split
  all_goals simp

@[simp] theorem State.retire_lifts (s : State) (c : RefundCase) : ((s.retire c).2.2).lifts = s.lifts := by
  simp only [State.retire]
  repeat' split
  all_goals simp

@[simp] theorem State.retire_minimumPayout (s : State) (c : RefundCase) : ((s.retire c).2.2).minimumPayout = s.minimumPayout := by
  simp only [State.retire]
  repeat' split
  all_goals simp

@[simp] theorem State.retire_stream (s : State) (c : RefundCase) : ((s.retire c).2.2).stream = s.stream := by
  simp only [State.retire]
  repeat' split
  all_goals simp

@[simp] theorem State.retire_timebase (s : State) (c : RefundCase) : ((s.retire c).2.2).timebase = s.timebase := by
  simp only [State.retire]
  repeat' split
  all_goals simp

@[simp] theorem State.retire_resetLine (s : State) (c : RefundCase) : ((s.retire c).2.2).resetLine = s.resetLine := by
  simp only [State.retire]
  repeat' split
  all_goals simp

@[simp] theorem State.retire_freeIndex (s : State) (c : RefundCase) : ((s.retire c).2.2).freeIndex = s.freeIndex := by
  simp only [State.retire]
  repeat' split
  all_goals simp

@[simp] theorem State.retire_pending (s : State) (c : RefundCase) : ((s.retire c).2.2).pending = s.pending := by
  simp only [State.retire]
  repeat' split
  all_goals simp

@[simp] theorem State.retire_lane (s : State) (c : RefundCase) (j : LaneNo) : ((s.retire c).2.2).lane j = s.lane j := State.lane_ext (by simp) j

@[simp] theorem State.retire_lift (s : State) (c : RefundCase) (j : LiftNo) : ((s.retire c).2.2).lift j = s.lift j := State.lift_ext (by simp) j

@[simp] theorem State.retire_product (s : State) (c : RefundCase) (j : ProductCode) : ((s.retire c).2.2).product j = s.product j := State.product_ext (by simp) j

/-! ### `State.applyRetire` -/

@[simp] theorem State.applyRetire_trunk (s : State) (u : Uid) : ((s.applyRetire u).2.2).trunk = s.trunk := by
  simp only [State.applyRetire]
  repeat' split
  all_goals simp

@[simp] theorem State.applyRetire_routed (s : State) (u : Uid) : ((s.applyRetire u).2.2).routed = s.routed := by
  simp only [State.applyRetire]
  repeat' split
  all_goals simp

@[simp] theorem State.applyRetire_arbiter (s : State) (u : Uid) : ((s.applyRetire u).2.2).arbiter = s.arbiter := by
  simp only [State.applyRetire]
  repeat' split
  all_goals simp

@[simp] theorem State.applyRetire_products (s : State) (u : Uid) : ((s.applyRetire u).2.2).products = s.products := by
  simp only [State.applyRetire]
  repeat' split
  all_goals simp

@[simp] theorem State.applyRetire_protection (s : State) (u : Uid) : ((s.applyRetire u).2.2).protection = s.protection := by
  simp only [State.applyRetire]
  repeat' split
  all_goals simp

@[simp] theorem State.applyRetire_serviceKey (s : State) (u : Uid) : ((s.applyRetire u).2.2).serviceKey = s.serviceKey := by
  simp only [State.applyRetire]
  repeat' split
  all_goals simp

@[simp] theorem State.applyRetire_calendar (s : State) (u : Uid) : ((s.applyRetire u).2.2).calendar = s.calendar := by
  simp only [State.applyRetire]
  repeat' split
  all_goals simp

@[simp] theorem State.applyRetire_lanes (s : State) (u : Uid) : ((s.applyRetire u).2.2).lanes = s.lanes := by
  simp only [State.applyRetire]
  repeat' split
  all_goals simp

@[simp] theorem State.applyRetire_lifts (s : State) (u : Uid) : ((s.applyRetire u).2.2).lifts = s.lifts := by
  simp only [State.applyRetire]
  repeat' split
  all_goals simp

@[simp] theorem State.applyRetire_minimumPayout (s : State) (u : Uid) : ((s.applyRetire u).2.2).minimumPayout = s.minimumPayout := by
  simp only [State.applyRetire]
  repeat' split
  all_goals simp

@[simp] theorem State.applyRetire_stream (s : State) (u : Uid) : ((s.applyRetire u).2.2).stream = s.stream := by
  simp only [State.applyRetire]
  repeat' split
  all_goals simp

@[simp] theorem State.applyRetire_timebase (s : State) (u : Uid) : ((s.applyRetire u).2.2).timebase = s.timebase := by
  simp only [State.applyRetire]
  repeat' split
  all_goals simp

@[simp] theorem State.applyRetire_resetLine (s : State) (u : Uid) : ((s.applyRetire u).2.2).resetLine = s.resetLine := by
  simp only [State.applyRetire]
  repeat' split
  all_goals simp

@[simp] theorem State.applyRetire_freeIndex (s : State) (u : Uid) : ((s.applyRetire u).2.2).freeIndex = s.freeIndex := by
  simp only [State.applyRetire]
  repeat' split
  all_goals simp

@[simp] theorem State.applyRetire_pending (s : State) (u : Uid) : ((s.applyRetire u).2.2).pending = s.pending := by
  simp only [State.applyRetire]
  repeat' split
  all_goals simp

@[simp] theorem State.applyRetire_lane (s : State) (u : Uid) (j : LaneNo) : ((s.applyRetire u).2.2).lane j = s.lane j := State.lane_ext (by simp) j

@[simp] theorem State.applyRetire_lift (s : State) (u : Uid) (j : LiftNo) : ((s.applyRetire u).2.2).lift j = s.lift j := State.lift_ext (by simp) j

@[simp] theorem State.applyRetire_product (s : State) (u : Uid) (j : ProductCode) : ((s.applyRetire u).2.2).product j = s.product j := State.product_ext (by simp) j

/-! ### `State.mergeSeason` -/

@[simp] theorem State.mergeSeason_trunk (s : State) (k : Nat) (row : PassRow) (d : Nat) : ((s.mergeSeason k row d).state).trunk = s.trunk := by
  simp only [State.mergeSeason]
  repeat' split
  all_goals simp

@[simp] theorem State.mergeSeason_routed (s : State) (k : Nat) (row : PassRow) (d : Nat) : ((s.mergeSeason k row d).state).routed = s.routed := by
  simp only [State.mergeSeason]
  repeat' split
  all_goals simp

@[simp] theorem State.mergeSeason_arbiter (s : State) (k : Nat) (row : PassRow) (d : Nat) : ((s.mergeSeason k row d).state).arbiter = s.arbiter := by
  simp only [State.mergeSeason]
  repeat' split
  all_goals simp

@[simp] theorem State.mergeSeason_products (s : State) (k : Nat) (row : PassRow) (d : Nat) : ((s.mergeSeason k row d).state).products = s.products := by
  simp only [State.mergeSeason]
  repeat' split
  all_goals simp

@[simp] theorem State.mergeSeason_protection (s : State) (k : Nat) (row : PassRow) (d : Nat) : ((s.mergeSeason k row d).state).protection = s.protection := by
  simp only [State.mergeSeason]
  repeat' split
  all_goals simp

@[simp] theorem State.mergeSeason_serviceKey (s : State) (k : Nat) (row : PassRow) (d : Nat) : ((s.mergeSeason k row d).state).serviceKey = s.serviceKey := by
  simp only [State.mergeSeason]
  repeat' split
  all_goals simp

@[simp] theorem State.mergeSeason_calendar (s : State) (k : Nat) (row : PassRow) (d : Nat) : ((s.mergeSeason k row d).state).calendar = s.calendar := by
  simp only [State.mergeSeason]
  repeat' split
  all_goals simp

@[simp] theorem State.mergeSeason_lanes (s : State) (k : Nat) (row : PassRow) (d : Nat) : ((s.mergeSeason k row d).state).lanes = s.lanes := by
  simp only [State.mergeSeason]
  repeat' split
  all_goals simp

@[simp] theorem State.mergeSeason_lifts (s : State) (k : Nat) (row : PassRow) (d : Nat) : ((s.mergeSeason k row d).state).lifts = s.lifts := by
  simp only [State.mergeSeason]
  repeat' split
  all_goals simp

@[simp] theorem State.mergeSeason_journal (s : State) (k : Nat) (row : PassRow) (d : Nat) : ((s.mergeSeason k row d).state).journal = s.journal := by
  simp only [State.mergeSeason]
  repeat' split
  all_goals simp

@[simp] theorem State.mergeSeason_minimumPayout (s : State) (k : Nat) (row : PassRow) (d : Nat) : ((s.mergeSeason k row d).state).minimumPayout = s.minimumPayout := by
  simp only [State.mergeSeason]
  repeat' split
  all_goals simp

@[simp] theorem State.mergeSeason_stream (s : State) (k : Nat) (row : PassRow) (d : Nat) : ((s.mergeSeason k row d).state).stream = s.stream := by
  simp only [State.mergeSeason]
  repeat' split
  all_goals simp

@[simp] theorem State.mergeSeason_timebase (s : State) (k : Nat) (row : PassRow) (d : Nat) : ((s.mergeSeason k row d).state).timebase = s.timebase := by
  simp only [State.mergeSeason]
  repeat' split
  all_goals simp

@[simp] theorem State.mergeSeason_resetLine (s : State) (k : Nat) (row : PassRow) (d : Nat) : ((s.mergeSeason k row d).state).resetLine = s.resetLine := by
  simp only [State.mergeSeason]
  repeat' split
  all_goals simp

@[simp] theorem State.mergeSeason_freeIndex (s : State) (k : Nat) (row : PassRow) (d : Nat) : ((s.mergeSeason k row d).state).freeIndex = s.freeIndex := by
  simp only [State.mergeSeason]
  repeat' split
  all_goals simp

@[simp] theorem State.mergeSeason_pending (s : State) (k : Nat) (row : PassRow) (d : Nat) : ((s.mergeSeason k row d).state).pending = s.pending := by
  simp only [State.mergeSeason]
  repeat' split
  all_goals simp

@[simp] theorem State.mergeSeason_lane (s : State) (k : Nat) (row : PassRow) (d : Nat) (j : LaneNo) : ((s.mergeSeason k row d).state).lane j = s.lane j := State.lane_ext (by simp) j

@[simp] theorem State.mergeSeason_lift (s : State) (k : Nat) (row : PassRow) (d : Nat) (j : LiftNo) : ((s.mergeSeason k row d).state).lift j = s.lift j := State.lift_ext (by simp) j

@[simp] theorem State.mergeSeason_product (s : State) (k : Nat) (row : PassRow) (d : Nat) (j : ProductCode) : ((s.mergeSeason k row d).state).product j = s.product j := State.product_ext (by simp) j

/-! ### `State.mergeInsert` -/

@[simp] theorem State.mergeInsert_trunk (s : State) (k : Nat) (row : PassRow) (d : Nat) : ((s.mergeInsert k row d).state).trunk = s.trunk := by
  simp only [State.mergeInsert]
  repeat' split
  all_goals simp

@[simp] theorem State.mergeInsert_routed (s : State) (k : Nat) (row : PassRow) (d : Nat) : ((s.mergeInsert k row d).state).routed = s.routed := by
  simp only [State.mergeInsert]
  repeat' split
  all_goals simp

@[simp] theorem State.mergeInsert_arbiter (s : State) (k : Nat) (row : PassRow) (d : Nat) : ((s.mergeInsert k row d).state).arbiter = s.arbiter := by
  simp only [State.mergeInsert]
  repeat' split
  all_goals simp

@[simp] theorem State.mergeInsert_products (s : State) (k : Nat) (row : PassRow) (d : Nat) : ((s.mergeInsert k row d).state).products = s.products := by
  simp only [State.mergeInsert]
  repeat' split
  all_goals simp

@[simp] theorem State.mergeInsert_protection (s : State) (k : Nat) (row : PassRow) (d : Nat) : ((s.mergeInsert k row d).state).protection = s.protection := by
  simp only [State.mergeInsert]
  repeat' split
  all_goals simp

@[simp] theorem State.mergeInsert_serviceKey (s : State) (k : Nat) (row : PassRow) (d : Nat) : ((s.mergeInsert k row d).state).serviceKey = s.serviceKey := by
  simp only [State.mergeInsert]
  repeat' split
  all_goals simp

@[simp] theorem State.mergeInsert_calendar (s : State) (k : Nat) (row : PassRow) (d : Nat) : ((s.mergeInsert k row d).state).calendar = s.calendar := by
  simp only [State.mergeInsert]
  repeat' split
  all_goals simp

@[simp] theorem State.mergeInsert_lanes (s : State) (k : Nat) (row : PassRow) (d : Nat) : ((s.mergeInsert k row d).state).lanes = s.lanes := by
  simp only [State.mergeInsert]
  repeat' split
  all_goals simp

@[simp] theorem State.mergeInsert_lifts (s : State) (k : Nat) (row : PassRow) (d : Nat) : ((s.mergeInsert k row d).state).lifts = s.lifts := by
  simp only [State.mergeInsert]
  repeat' split
  all_goals simp

@[simp] theorem State.mergeInsert_minimumPayout (s : State) (k : Nat) (row : PassRow) (d : Nat) : ((s.mergeInsert k row d).state).minimumPayout = s.minimumPayout := by
  simp only [State.mergeInsert]
  repeat' split
  all_goals simp

@[simp] theorem State.mergeInsert_stream (s : State) (k : Nat) (row : PassRow) (d : Nat) : ((s.mergeInsert k row d).state).stream = s.stream := by
  simp only [State.mergeInsert]
  repeat' split
  all_goals simp

@[simp] theorem State.mergeInsert_timebase (s : State) (k : Nat) (row : PassRow) (d : Nat) : ((s.mergeInsert k row d).state).timebase = s.timebase := by
  simp only [State.mergeInsert]
  repeat' split
  all_goals simp

@[simp] theorem State.mergeInsert_resetLine (s : State) (k : Nat) (row : PassRow) (d : Nat) : ((s.mergeInsert k row d).state).resetLine = s.resetLine := by
  simp only [State.mergeInsert]
  repeat' split
  all_goals simp

@[simp] theorem State.mergeInsert_freeIndex (s : State) (k : Nat) (row : PassRow) (d : Nat) : ((s.mergeInsert k row d).state).freeIndex = s.freeIndex := by
  simp only [State.mergeInsert]
  repeat' split
  all_goals simp

@[simp] theorem State.mergeInsert_pending (s : State) (k : Nat) (row : PassRow) (d : Nat) : ((s.mergeInsert k row d).state).pending = s.pending := by
  simp only [State.mergeInsert]
  repeat' split
  all_goals simp

@[simp] theorem State.mergeInsert_lane (s : State) (k : Nat) (row : PassRow) (d : Nat) (j : LaneNo) : ((s.mergeInsert k row d).state).lane j = s.lane j := State.lane_ext (by simp) j

@[simp] theorem State.mergeInsert_lift (s : State) (k : Nat) (row : PassRow) (d : Nat) (j : LiftNo) : ((s.mergeInsert k row d).state).lift j = s.lift j := State.lift_ext (by simp) j

@[simp] theorem State.mergeInsert_product (s : State) (k : Nat) (row : PassRow) (d : Nat) (j : ProductCode) : ((s.mergeInsert k row d).state).product j = s.product j := State.product_ext (by simp) j

/-! ### `State.mergeMultiDay` -/

@[simp] theorem State.mergeMultiDay_trunk (s : State) (k : Nat) (row : PassRow) (d : Nat) : ((s.mergeMultiDay k row d).state).trunk = s.trunk := by
  simp only [State.mergeMultiDay]
  repeat' split
  all_goals simp

@[simp] theorem State.mergeMultiDay_routed (s : State) (k : Nat) (row : PassRow) (d : Nat) : ((s.mergeMultiDay k row d).state).routed = s.routed := by
  simp only [State.mergeMultiDay]
  repeat' split
  all_goals simp

@[simp] theorem State.mergeMultiDay_arbiter (s : State) (k : Nat) (row : PassRow) (d : Nat) : ((s.mergeMultiDay k row d).state).arbiter = s.arbiter := by
  simp only [State.mergeMultiDay]
  repeat' split
  all_goals simp

@[simp] theorem State.mergeMultiDay_products (s : State) (k : Nat) (row : PassRow) (d : Nat) : ((s.mergeMultiDay k row d).state).products = s.products := by
  simp only [State.mergeMultiDay]
  repeat' split
  all_goals simp

@[simp] theorem State.mergeMultiDay_protection (s : State) (k : Nat) (row : PassRow) (d : Nat) : ((s.mergeMultiDay k row d).state).protection = s.protection := by
  simp only [State.mergeMultiDay]
  repeat' split
  all_goals simp

@[simp] theorem State.mergeMultiDay_serviceKey (s : State) (k : Nat) (row : PassRow) (d : Nat) : ((s.mergeMultiDay k row d).state).serviceKey = s.serviceKey := by
  simp only [State.mergeMultiDay]
  repeat' split
  all_goals simp

@[simp] theorem State.mergeMultiDay_calendar (s : State) (k : Nat) (row : PassRow) (d : Nat) : ((s.mergeMultiDay k row d).state).calendar = s.calendar := by
  simp only [State.mergeMultiDay]
  repeat' split
  all_goals simp

@[simp] theorem State.mergeMultiDay_lanes (s : State) (k : Nat) (row : PassRow) (d : Nat) : ((s.mergeMultiDay k row d).state).lanes = s.lanes := by
  simp only [State.mergeMultiDay]
  repeat' split
  all_goals simp

@[simp] theorem State.mergeMultiDay_lifts (s : State) (k : Nat) (row : PassRow) (d : Nat) : ((s.mergeMultiDay k row d).state).lifts = s.lifts := by
  simp only [State.mergeMultiDay]
  repeat' split
  all_goals simp

@[simp] theorem State.mergeMultiDay_minimumPayout (s : State) (k : Nat) (row : PassRow) (d : Nat) : ((s.mergeMultiDay k row d).state).minimumPayout = s.minimumPayout := by
  simp only [State.mergeMultiDay]
  repeat' split
  all_goals simp

@[simp] theorem State.mergeMultiDay_stream (s : State) (k : Nat) (row : PassRow) (d : Nat) : ((s.mergeMultiDay k row d).state).stream = s.stream := by
  simp only [State.mergeMultiDay]
  repeat' split
  all_goals simp

@[simp] theorem State.mergeMultiDay_timebase (s : State) (k : Nat) (row : PassRow) (d : Nat) : ((s.mergeMultiDay k row d).state).timebase = s.timebase := by
  simp only [State.mergeMultiDay]
  repeat' split
  all_goals simp

@[simp] theorem State.mergeMultiDay_resetLine (s : State) (k : Nat) (row : PassRow) (d : Nat) : ((s.mergeMultiDay k row d).state).resetLine = s.resetLine := by
  simp only [State.mergeMultiDay]
  repeat' split
  all_goals simp

@[simp] theorem State.mergeMultiDay_freeIndex (s : State) (k : Nat) (row : PassRow) (d : Nat) : ((s.mergeMultiDay k row d).state).freeIndex = s.freeIndex := by
  simp only [State.mergeMultiDay]
  repeat' split
  all_goals simp

@[simp] theorem State.mergeMultiDay_pending (s : State) (k : Nat) (row : PassRow) (d : Nat) : ((s.mergeMultiDay k row d).state).pending = s.pending := by
  simp only [State.mergeMultiDay]
  repeat' split
  all_goals simp

@[simp] theorem State.mergeMultiDay_lane (s : State) (k : Nat) (row : PassRow) (d : Nat) (j : LaneNo) : ((s.mergeMultiDay k row d).state).lane j = s.lane j := State.lane_ext (by simp) j

@[simp] theorem State.mergeMultiDay_lift (s : State) (k : Nat) (row : PassRow) (d : Nat) (j : LiftNo) : ((s.mergeMultiDay k row d).state).lift j = s.lift j := State.lift_ext (by simp) j

@[simp] theorem State.mergeMultiDay_product (s : State) (k : Nat) (row : PassRow) (d : Nat) (j : ProductCode) : ((s.mergeMultiDay k row d).state).product j = s.product j := State.product_ext (by simp) j

/-! ### `State.merge` -/

@[simp] theorem State.merge_trunk (s : State) (u : Uid) (d : Nat) : ((s.merge u d).state).trunk = s.trunk := by
  simp only [State.merge]
  repeat' split
  all_goals simp

@[simp] theorem State.merge_routed (s : State) (u : Uid) (d : Nat) : ((s.merge u d).state).routed = s.routed := by
  simp only [State.merge]
  repeat' split
  all_goals simp

@[simp] theorem State.merge_arbiter (s : State) (u : Uid) (d : Nat) : ((s.merge u d).state).arbiter = s.arbiter := by
  simp only [State.merge]
  repeat' split
  all_goals simp

@[simp] theorem State.merge_products (s : State) (u : Uid) (d : Nat) : ((s.merge u d).state).products = s.products := by
  simp only [State.merge]
  repeat' split
  all_goals simp

@[simp] theorem State.merge_protection (s : State) (u : Uid) (d : Nat) : ((s.merge u d).state).protection = s.protection := by
  simp only [State.merge]
  repeat' split
  all_goals simp

@[simp] theorem State.merge_serviceKey (s : State) (u : Uid) (d : Nat) : ((s.merge u d).state).serviceKey = s.serviceKey := by
  simp only [State.merge]
  repeat' split
  all_goals simp

@[simp] theorem State.merge_calendar (s : State) (u : Uid) (d : Nat) : ((s.merge u d).state).calendar = s.calendar := by
  simp only [State.merge]
  repeat' split
  all_goals simp

@[simp] theorem State.merge_lanes (s : State) (u : Uid) (d : Nat) : ((s.merge u d).state).lanes = s.lanes := by
  simp only [State.merge]
  repeat' split
  all_goals simp

@[simp] theorem State.merge_lifts (s : State) (u : Uid) (d : Nat) : ((s.merge u d).state).lifts = s.lifts := by
  simp only [State.merge]
  repeat' split
  all_goals simp

@[simp] theorem State.merge_minimumPayout (s : State) (u : Uid) (d : Nat) : ((s.merge u d).state).minimumPayout = s.minimumPayout := by
  simp only [State.merge]
  repeat' split
  all_goals simp

@[simp] theorem State.merge_stream (s : State) (u : Uid) (d : Nat) : ((s.merge u d).state).stream = s.stream := by
  simp only [State.merge]
  repeat' split
  all_goals simp

@[simp] theorem State.merge_timebase (s : State) (u : Uid) (d : Nat) : ((s.merge u d).state).timebase = s.timebase := by
  simp only [State.merge]
  repeat' split
  all_goals simp

@[simp] theorem State.merge_resetLine (s : State) (u : Uid) (d : Nat) : ((s.merge u d).state).resetLine = s.resetLine := by
  simp only [State.merge]
  repeat' split
  all_goals simp

@[simp] theorem State.merge_freeIndex (s : State) (u : Uid) (d : Nat) : ((s.merge u d).state).freeIndex = s.freeIndex := by
  simp only [State.merge]
  repeat' split
  all_goals simp

@[simp] theorem State.merge_pending (s : State) (u : Uid) (d : Nat) : ((s.merge u d).state).pending = s.pending := by
  simp only [State.merge]
  repeat' split
  all_goals simp

@[simp] theorem State.merge_lane (s : State) (u : Uid) (d : Nat) (j : LaneNo) : ((s.merge u d).state).lane j = s.lane j := State.lane_ext (by simp) j

@[simp] theorem State.merge_lift (s : State) (u : Uid) (d : Nat) (j : LiftNo) : ((s.merge u d).state).lift j = s.lift j := State.lift_ext (by simp) j

@[simp] theorem State.merge_product (s : State) (u : Uid) (d : Nat) (j : ProductCode) : ((s.merge u d).state).product j = s.product j := State.product_ext (by simp) j

/-! ### `State.sweepSlot` -/

@[simp] theorem State.sweepSlot_trunk (s : State)  : (s.sweepSlot).trunk = s.trunk := by
  simp only [State.sweepSlot]
  repeat' split
  all_goals simp

@[simp] theorem State.sweepSlot_routed (s : State)  : (s.sweepSlot).routed = s.routed := by
  simp only [State.sweepSlot]
  repeat' split
  all_goals simp

@[simp] theorem State.sweepSlot_arbiter (s : State)  : (s.sweepSlot).arbiter = s.arbiter := by
  simp only [State.sweepSlot]
  repeat' split
  all_goals simp

@[simp] theorem State.sweepSlot_protection (s : State)  : (s.sweepSlot).protection = s.protection := by
  simp only [State.sweepSlot]
  repeat' split
  all_goals simp

@[simp] theorem State.sweepSlot_serviceKey (s : State)  : (s.sweepSlot).serviceKey = s.serviceKey := by
  simp only [State.sweepSlot]
  repeat' split
  all_goals simp

@[simp] theorem State.sweepSlot_calendar (s : State)  : (s.sweepSlot).calendar = s.calendar := by
  simp only [State.sweepSlot]
  repeat' split
  all_goals simp

@[simp] theorem State.sweepSlot_lanes (s : State)  : (s.sweepSlot).lanes = s.lanes := by
  simp only [State.sweepSlot]
  repeat' split
  all_goals simp

@[simp] theorem State.sweepSlot_lifts (s : State)  : (s.sweepSlot).lifts = s.lifts := by
  simp only [State.sweepSlot]
  repeat' split
  all_goals simp

@[simp] theorem State.sweepSlot_journal (s : State)  : (s.sweepSlot).journal = s.journal := by
  simp only [State.sweepSlot]
  repeat' split
  all_goals simp

@[simp] theorem State.sweepSlot_minimumPayout (s : State)  : (s.sweepSlot).minimumPayout = s.minimumPayout := by
  simp only [State.sweepSlot]
  repeat' split
  all_goals simp

@[simp] theorem State.sweepSlot_timebase (s : State)  : (s.sweepSlot).timebase = s.timebase := by
  simp only [State.sweepSlot]
  repeat' split
  all_goals simp

@[simp] theorem State.sweepSlot_resetLine (s : State)  : (s.sweepSlot).resetLine = s.resetLine := by
  simp only [State.sweepSlot]
  repeat' split
  all_goals simp

@[simp] theorem State.sweepSlot_freeIndex (s : State)  : (s.sweepSlot).freeIndex = s.freeIndex := by
  simp only [State.sweepSlot]
  repeat' split
  all_goals simp

@[simp] theorem State.sweepSlot_pending (s : State)  : (s.sweepSlot).pending = s.pending := by
  simp only [State.sweepSlot]
  repeat' split
  all_goals simp

@[simp] theorem State.sweepSlot_lane (s : State)  (j : LaneNo) : (s.sweepSlot).lane j = s.lane j := State.lane_ext (by simp) j

@[simp] theorem State.sweepSlot_lift (s : State)  (j : LiftNo) : (s.sweepSlot).lift j = s.lift j := State.lift_ext (by simp) j

/-! ### `State.denyAt` -/

@[simp] theorem State.denyAt_trunk (s : State) (l : LaneNo) (r : DenyReason) : (s.denyAt l r).trunk = s.trunk := by
  simp [State.denyAt]

@[simp] theorem State.denyAt_routed (s : State) (l : LaneNo) (r : DenyReason) : (s.denyAt l r).routed = s.routed := by
  simp [State.denyAt]

@[simp] theorem State.denyAt_table (s : State) (l : LaneNo) (r : DenyReason) : (s.denyAt l r).table = s.table := by
  simp [State.denyAt]

@[simp] theorem State.denyAt_arbiter (s : State) (l : LaneNo) (r : DenyReason) : (s.denyAt l r).arbiter = s.arbiter := by
  simp [State.denyAt]

@[simp] theorem State.denyAt_products (s : State) (l : LaneNo) (r : DenyReason) : (s.denyAt l r).products = s.products := by
  simp [State.denyAt]

@[simp] theorem State.denyAt_protection (s : State) (l : LaneNo) (r : DenyReason) : (s.denyAt l r).protection = s.protection := by
  simp [State.denyAt]

@[simp] theorem State.denyAt_serviceKey (s : State) (l : LaneNo) (r : DenyReason) : (s.denyAt l r).serviceKey = s.serviceKey := by
  simp [State.denyAt]

@[simp] theorem State.denyAt_calendar (s : State) (l : LaneNo) (r : DenyReason) : (s.denyAt l r).calendar = s.calendar := by
  simp [State.denyAt]

@[simp] theorem State.denyAt_lifts (s : State) (l : LaneNo) (r : DenyReason) : (s.denyAt l r).lifts = s.lifts := by
  simp [State.denyAt]

@[simp] theorem State.denyAt_journal (s : State) (l : LaneNo) (r : DenyReason) : (s.denyAt l r).journal = s.journal := by
  simp [State.denyAt]

@[simp] theorem State.denyAt_minimumPayout (s : State) (l : LaneNo) (r : DenyReason) : (s.denyAt l r).minimumPayout = s.minimumPayout := by
  simp [State.denyAt]

@[simp] theorem State.denyAt_stream (s : State) (l : LaneNo) (r : DenyReason) : (s.denyAt l r).stream = s.stream := by
  simp [State.denyAt]

@[simp] theorem State.denyAt_timebase (s : State) (l : LaneNo) (r : DenyReason) : (s.denyAt l r).timebase = s.timebase := by
  simp [State.denyAt]

@[simp] theorem State.denyAt_resetLine (s : State) (l : LaneNo) (r : DenyReason) : (s.denyAt l r).resetLine = s.resetLine := by
  simp [State.denyAt]

@[simp] theorem State.denyAt_freeIndex (s : State) (l : LaneNo) (r : DenyReason) : (s.denyAt l r).freeIndex = s.freeIndex := by
  simp [State.denyAt]

@[simp] theorem State.denyAt_pending (s : State) (l : LaneNo) (r : DenyReason) : (s.denyAt l r).pending = s.pending := by
  simp [State.denyAt]

@[simp] theorem State.denyAt_lift (s : State) (l : LaneNo) (r : DenyReason) (j : LiftNo) : (s.denyAt l r).lift j = s.lift j := State.lift_ext (by simp) j

@[simp] theorem State.denyAt_product (s : State) (l : LaneNo) (r : DenyReason) (j : ProductCode) : (s.denyAt l r).product j = s.product j := State.product_ext (by simp) j

/-! ### `State.grantAt` -/

@[simp] theorem State.grantAt_trunk (s : State) (l : LaneNo) (i : LiftNo) (k : Nat) (u : Uid) (row : PassRow) : (s.grantAt l i k u row).trunk = s.trunk := by
  simp [State.grantAt]

@[simp] theorem State.grantAt_routed (s : State) (l : LaneNo) (i : LiftNo) (k : Nat) (u : Uid) (row : PassRow) : (s.grantAt l i k u row).routed = s.routed := by
  simp [State.grantAt]

@[simp] theorem State.grantAt_arbiter (s : State) (l : LaneNo) (i : LiftNo) (k : Nat) (u : Uid) (row : PassRow) : (s.grantAt l i k u row).arbiter = s.arbiter := by
  simp [State.grantAt]

@[simp] theorem State.grantAt_products (s : State) (l : LaneNo) (i : LiftNo) (k : Nat) (u : Uid) (row : PassRow) : (s.grantAt l i k u row).products = s.products := by
  simp [State.grantAt]

@[simp] theorem State.grantAt_protection (s : State) (l : LaneNo) (i : LiftNo) (k : Nat) (u : Uid) (row : PassRow) : (s.grantAt l i k u row).protection = s.protection := by
  simp [State.grantAt]

@[simp] theorem State.grantAt_serviceKey (s : State) (l : LaneNo) (i : LiftNo) (k : Nat) (u : Uid) (row : PassRow) : (s.grantAt l i k u row).serviceKey = s.serviceKey := by
  simp [State.grantAt]

@[simp] theorem State.grantAt_calendar (s : State) (l : LaneNo) (i : LiftNo) (k : Nat) (u : Uid) (row : PassRow) : (s.grantAt l i k u row).calendar = s.calendar := by
  simp [State.grantAt]

@[simp] theorem State.grantAt_lifts (s : State) (l : LaneNo) (i : LiftNo) (k : Nat) (u : Uid) (row : PassRow) : (s.grantAt l i k u row).lifts = s.lifts := by
  simp [State.grantAt]

@[simp] theorem State.grantAt_journal (s : State) (l : LaneNo) (i : LiftNo) (k : Nat) (u : Uid) (row : PassRow) : (s.grantAt l i k u row).journal = s.journal := by
  simp [State.grantAt]

@[simp] theorem State.grantAt_minimumPayout (s : State) (l : LaneNo) (i : LiftNo) (k : Nat) (u : Uid) (row : PassRow) : (s.grantAt l i k u row).minimumPayout = s.minimumPayout := by
  simp [State.grantAt]

@[simp] theorem State.grantAt_stream (s : State) (l : LaneNo) (i : LiftNo) (k : Nat) (u : Uid) (row : PassRow) : (s.grantAt l i k u row).stream = s.stream := by
  simp [State.grantAt]

@[simp] theorem State.grantAt_timebase (s : State) (l : LaneNo) (i : LiftNo) (k : Nat) (u : Uid) (row : PassRow) : (s.grantAt l i k u row).timebase = s.timebase := by
  simp [State.grantAt]

@[simp] theorem State.grantAt_resetLine (s : State) (l : LaneNo) (i : LiftNo) (k : Nat) (u : Uid) (row : PassRow) : (s.grantAt l i k u row).resetLine = s.resetLine := by
  simp [State.grantAt]

@[simp] theorem State.grantAt_freeIndex (s : State) (l : LaneNo) (i : LiftNo) (k : Nat) (u : Uid) (row : PassRow) : (s.grantAt l i k u row).freeIndex = s.freeIndex := by
  simp [State.grantAt]

@[simp] theorem State.grantAt_pending (s : State) (l : LaneNo) (i : LiftNo) (k : Nat) (u : Uid) (row : PassRow) : (s.grantAt l i k u row).pending = s.pending := by
  simp [State.grantAt]

@[simp] theorem State.grantAt_lift (s : State) (l : LaneNo) (i : LiftNo) (k : Nat) (u : Uid) (row : PassRow) (j : LiftNo) : (s.grantAt l i k u row).lift j = s.lift j := State.lift_ext (by simp) j

@[simp] theorem State.grantAt_product (s : State) (l : LaneNo) (i : LiftNo) (k : Nat) (u : Uid) (row : PassRow) (j : ProductCode) : (s.grantAt l i k u row).product j = s.product j := State.product_ext (by simp) j

/-! ### `State.validateServed` -/

@[simp] theorem State.validateServed_trunk (s : State) (l : LaneNo) (u : Uid) : (s.validateServed l u).trunk = s.trunk := by
  simp only [State.validateServed]
  repeat' split
  all_goals simp

@[simp] theorem State.validateServed_routed (s : State) (l : LaneNo) (u : Uid) : (s.validateServed l u).routed = s.routed := by
  simp only [State.validateServed]
  repeat' split
  all_goals simp

@[simp] theorem State.validateServed_arbiter (s : State) (l : LaneNo) (u : Uid) : (s.validateServed l u).arbiter = s.arbiter := by
  simp only [State.validateServed]
  repeat' split
  all_goals simp

@[simp] theorem State.validateServed_products (s : State) (l : LaneNo) (u : Uid) : (s.validateServed l u).products = s.products := by
  simp only [State.validateServed]
  repeat' split
  all_goals simp

@[simp] theorem State.validateServed_protection (s : State) (l : LaneNo) (u : Uid) : (s.validateServed l u).protection = s.protection := by
  simp only [State.validateServed]
  repeat' split
  all_goals simp

@[simp] theorem State.validateServed_serviceKey (s : State) (l : LaneNo) (u : Uid) : (s.validateServed l u).serviceKey = s.serviceKey := by
  simp only [State.validateServed]
  repeat' split
  all_goals simp

@[simp] theorem State.validateServed_calendar (s : State) (l : LaneNo) (u : Uid) : (s.validateServed l u).calendar = s.calendar := by
  simp only [State.validateServed]
  repeat' split
  all_goals simp

@[simp] theorem State.validateServed_lifts (s : State) (l : LaneNo) (u : Uid) : (s.validateServed l u).lifts = s.lifts := by
  simp only [State.validateServed]
  repeat' split
  all_goals simp

@[simp] theorem State.validateServed_journal (s : State) (l : LaneNo) (u : Uid) : (s.validateServed l u).journal = s.journal := by
  simp only [State.validateServed]
  repeat' split
  all_goals simp

@[simp] theorem State.validateServed_minimumPayout (s : State) (l : LaneNo) (u : Uid) : (s.validateServed l u).minimumPayout = s.minimumPayout := by
  simp only [State.validateServed]
  repeat' split
  all_goals simp

@[simp] theorem State.validateServed_stream (s : State) (l : LaneNo) (u : Uid) : (s.validateServed l u).stream = s.stream := by
  simp only [State.validateServed]
  repeat' split
  all_goals simp

@[simp] theorem State.validateServed_timebase (s : State) (l : LaneNo) (u : Uid) : (s.validateServed l u).timebase = s.timebase := by
  simp only [State.validateServed]
  repeat' split
  all_goals simp

@[simp] theorem State.validateServed_resetLine (s : State) (l : LaneNo) (u : Uid) : (s.validateServed l u).resetLine = s.resetLine := by
  simp only [State.validateServed]
  repeat' split
  all_goals simp

@[simp] theorem State.validateServed_freeIndex (s : State) (l : LaneNo) (u : Uid) : (s.validateServed l u).freeIndex = s.freeIndex := by
  simp only [State.validateServed]
  repeat' split
  all_goals simp

@[simp] theorem State.validateServed_pending (s : State) (l : LaneNo) (u : Uid) : (s.validateServed l u).pending = s.pending := by
  simp only [State.validateServed]
  repeat' split
  all_goals simp

@[simp] theorem State.validateServed_lift (s : State) (l : LaneNo) (u : Uid) (j : LiftNo) : (s.validateServed l u).lift j = s.lift j := State.lift_ext (by simp) j

@[simp] theorem State.validateServed_product (s : State) (l : LaneNo) (u : Uid) (j : ProductCode) : (s.validateServed l u).product j = s.product j := State.product_ext (by simp) j

/-! ### `State.validate` -/

@[simp] theorem State.validate_trunk (s : State) (l : LaneNo) (u : Uid) : (s.validate l u).trunk = s.trunk := by
  simp only [State.validate]
  repeat' split
  all_goals simp

@[simp] theorem State.validate_routed (s : State) (l : LaneNo) (u : Uid) : (s.validate l u).routed = s.routed := by
  simp only [State.validate]
  repeat' split
  all_goals simp

@[simp] theorem State.validate_arbiter (s : State) (l : LaneNo) (u : Uid) : (s.validate l u).arbiter = s.arbiter := by
  simp only [State.validate]
  repeat' split
  all_goals simp

@[simp] theorem State.validate_products (s : State) (l : LaneNo) (u : Uid) : (s.validate l u).products = s.products := by
  simp only [State.validate]
  repeat' split
  all_goals simp

@[simp] theorem State.validate_protection (s : State) (l : LaneNo) (u : Uid) : (s.validate l u).protection = s.protection := by
  simp only [State.validate]
  repeat' split
  all_goals simp

@[simp] theorem State.validate_serviceKey (s : State) (l : LaneNo) (u : Uid) : (s.validate l u).serviceKey = s.serviceKey := by
  simp only [State.validate]
  repeat' split
  all_goals simp

@[simp] theorem State.validate_calendar (s : State) (l : LaneNo) (u : Uid) : (s.validate l u).calendar = s.calendar := by
  simp only [State.validate]
  repeat' split
  all_goals simp

@[simp] theorem State.validate_lifts (s : State) (l : LaneNo) (u : Uid) : (s.validate l u).lifts = s.lifts := by
  simp only [State.validate]
  repeat' split
  all_goals simp

@[simp] theorem State.validate_journal (s : State) (l : LaneNo) (u : Uid) : (s.validate l u).journal = s.journal := by
  simp only [State.validate]
  repeat' split
  all_goals simp

@[simp] theorem State.validate_minimumPayout (s : State) (l : LaneNo) (u : Uid) : (s.validate l u).minimumPayout = s.minimumPayout := by
  simp only [State.validate]
  repeat' split
  all_goals simp

@[simp] theorem State.validate_stream (s : State) (l : LaneNo) (u : Uid) : (s.validate l u).stream = s.stream := by
  simp only [State.validate]
  repeat' split
  all_goals simp

@[simp] theorem State.validate_timebase (s : State) (l : LaneNo) (u : Uid) : (s.validate l u).timebase = s.timebase := by
  simp only [State.validate]
  repeat' split
  all_goals simp

@[simp] theorem State.validate_resetLine (s : State) (l : LaneNo) (u : Uid) : (s.validate l u).resetLine = s.resetLine := by
  simp only [State.validate]
  repeat' split
  all_goals simp

@[simp] theorem State.validate_freeIndex (s : State) (l : LaneNo) (u : Uid) : (s.validate l u).freeIndex = s.freeIndex := by
  simp only [State.validate]
  repeat' split
  all_goals simp

@[simp] theorem State.validate_pending (s : State) (l : LaneNo) (u : Uid) : (s.validate l u).pending = s.pending := by
  simp only [State.validate]
  repeat' split
  all_goals simp

@[simp] theorem State.validate_lift (s : State) (l : LaneNo) (u : Uid) (j : LiftNo) : (s.validate l u).lift j = s.lift j := State.lift_ext (by simp) j

@[simp] theorem State.validate_product (s : State) (l : LaneNo) (u : Uid) (j : ProductCode) : (s.validate l u).product j = s.product j := State.product_ext (by simp) j

/-! ### `State.handSettings` -/

@[simp] theorem State.handSettings_table (s : State) (r : Routed) : (s.handSettings r).table = s.table := by
  simp [State.handSettings]

@[simp] theorem State.handSettings_arbiter (s : State) (r : Routed) : (s.handSettings r).arbiter = s.arbiter := by
  simp [State.handSettings]

@[simp] theorem State.handSettings_products (s : State) (r : Routed) : (s.handSettings r).products = s.products := by
  simp [State.handSettings]

@[simp] theorem State.handSettings_protection (s : State) (r : Routed) : (s.handSettings r).protection = s.protection := by
  simp [State.handSettings]

@[simp] theorem State.handSettings_serviceKey (s : State) (r : Routed) : (s.handSettings r).serviceKey = s.serviceKey := by
  simp [State.handSettings]

@[simp] theorem State.handSettings_calendar (s : State) (r : Routed) : (s.handSettings r).calendar = s.calendar := by
  simp [State.handSettings]

@[simp] theorem State.handSettings_lanes (s : State) (r : Routed) : (s.handSettings r).lanes = s.lanes := by
  simp [State.handSettings]

@[simp] theorem State.handSettings_lifts (s : State) (r : Routed) : (s.handSettings r).lifts = s.lifts := by
  simp [State.handSettings]

@[simp] theorem State.handSettings_journal (s : State) (r : Routed) : (s.handSettings r).journal = s.journal := by
  simp [State.handSettings]

@[simp] theorem State.handSettings_minimumPayout (s : State) (r : Routed) : (s.handSettings r).minimumPayout = s.minimumPayout := by
  simp [State.handSettings]

@[simp] theorem State.handSettings_stream (s : State) (r : Routed) : (s.handSettings r).stream = s.stream := by
  simp [State.handSettings]

@[simp] theorem State.handSettings_timebase (s : State) (r : Routed) : (s.handSettings r).timebase = s.timebase := by
  simp [State.handSettings]

@[simp] theorem State.handSettings_resetLine (s : State) (r : Routed) : (s.handSettings r).resetLine = s.resetLine := by
  simp [State.handSettings]

@[simp] theorem State.handSettings_freeIndex (s : State) (r : Routed) : (s.handSettings r).freeIndex = s.freeIndex := by
  simp [State.handSettings]

@[simp] theorem State.handSettings_pending (s : State) (r : Routed) : (s.handSettings r).pending = s.pending := by
  simp [State.handSettings]

@[simp] theorem State.handSettings_lane (s : State) (r : Routed) (j : LaneNo) : (s.handSettings r).lane j = s.lane j := State.lane_ext (by simp) j

@[simp] theorem State.handSettings_lift (s : State) (r : Routed) (j : LiftNo) : (s.handSettings r).lift j = s.lift j := State.lift_ext (by simp) j

@[simp] theorem State.handSettings_product (s : State) (r : Routed) (j : ProductCode) : (s.handSettings r).product j = s.product j := State.product_ext (by simp) j

/-! ### `State.laneSettings` -/

@[simp] theorem State.laneSettings_routed (s : State) (l : LaneNo) (r : Routed) : (s.laneSettings l r).routed = s.routed := by
  simp [State.laneSettings]

@[simp] theorem State.laneSettings_table (s : State) (l : LaneNo) (r : Routed) : (s.laneSettings l r).table = s.table := by
  simp [State.laneSettings]

@[simp] theorem State.laneSettings_arbiter (s : State) (l : LaneNo) (r : Routed) : (s.laneSettings l r).arbiter = s.arbiter := by
  simp [State.laneSettings]

@[simp] theorem State.laneSettings_products (s : State) (l : LaneNo) (r : Routed) : (s.laneSettings l r).products = s.products := by
  simp [State.laneSettings]

@[simp] theorem State.laneSettings_protection (s : State) (l : LaneNo) (r : Routed) : (s.laneSettings l r).protection = s.protection := by
  simp [State.laneSettings]

@[simp] theorem State.laneSettings_serviceKey (s : State) (l : LaneNo) (r : Routed) : (s.laneSettings l r).serviceKey = s.serviceKey := by
  simp [State.laneSettings]

@[simp] theorem State.laneSettings_calendar (s : State) (l : LaneNo) (r : Routed) : (s.laneSettings l r).calendar = s.calendar := by
  simp [State.laneSettings]

@[simp] theorem State.laneSettings_lifts (s : State) (l : LaneNo) (r : Routed) : (s.laneSettings l r).lifts = s.lifts := by
  simp [State.laneSettings]

@[simp] theorem State.laneSettings_journal (s : State) (l : LaneNo) (r : Routed) : (s.laneSettings l r).journal = s.journal := by
  simp [State.laneSettings]

@[simp] theorem State.laneSettings_minimumPayout (s : State) (l : LaneNo) (r : Routed) : (s.laneSettings l r).minimumPayout = s.minimumPayout := by
  simp [State.laneSettings]

@[simp] theorem State.laneSettings_stream (s : State) (l : LaneNo) (r : Routed) : (s.laneSettings l r).stream = s.stream := by
  simp [State.laneSettings]

@[simp] theorem State.laneSettings_timebase (s : State) (l : LaneNo) (r : Routed) : (s.laneSettings l r).timebase = s.timebase := by
  simp [State.laneSettings]

@[simp] theorem State.laneSettings_resetLine (s : State) (l : LaneNo) (r : Routed) : (s.laneSettings l r).resetLine = s.resetLine := by
  simp [State.laneSettings]

@[simp] theorem State.laneSettings_freeIndex (s : State) (l : LaneNo) (r : Routed) : (s.laneSettings l r).freeIndex = s.freeIndex := by
  simp [State.laneSettings]

@[simp] theorem State.laneSettings_pending (s : State) (l : LaneNo) (r : Routed) : (s.laneSettings l r).pending = s.pending := by
  simp [State.laneSettings]

@[simp] theorem State.laneSettings_lift (s : State) (l : LaneNo) (r : Routed) (j : LiftNo) : (s.laneSettings l r).lift j = s.lift j := State.lift_ext (by simp) j

@[simp] theorem State.laneSettings_product (s : State) (l : LaneNo) (r : Routed) (j : ProductCode) : (s.laneSettings l r).product j = s.product j := State.product_ext (by simp) j

/-! ### `State.payoutSetting` -/

@[simp] theorem State.payoutSetting_routed (s : State) (r : Routed) : (s.payoutSetting r).routed = s.routed := by
  simp [State.payoutSetting]

@[simp] theorem State.payoutSetting_table (s : State) (r : Routed) : (s.payoutSetting r).table = s.table := by
  simp [State.payoutSetting]

@[simp] theorem State.payoutSetting_arbiter (s : State) (r : Routed) : (s.payoutSetting r).arbiter = s.arbiter := by
  simp [State.payoutSetting]

@[simp] theorem State.payoutSetting_products (s : State) (r : Routed) : (s.payoutSetting r).products = s.products := by
  simp [State.payoutSetting]

@[simp] theorem State.payoutSetting_protection (s : State) (r : Routed) : (s.payoutSetting r).protection = s.protection := by
  simp [State.payoutSetting]

@[simp] theorem State.payoutSetting_serviceKey (s : State) (r : Routed) : (s.payoutSetting r).serviceKey = s.serviceKey := by
  simp [State.payoutSetting]

@[simp] theorem State.payoutSetting_calendar (s : State) (r : Routed) : (s.payoutSetting r).calendar = s.calendar := by
  simp [State.payoutSetting]

@[simp] theorem State.payoutSetting_lanes (s : State) (r : Routed) : (s.payoutSetting r).lanes = s.lanes := by
  simp [State.payoutSetting]

@[simp] theorem State.payoutSetting_lifts (s : State) (r : Routed) : (s.payoutSetting r).lifts = s.lifts := by
  simp [State.payoutSetting]

@[simp] theorem State.payoutSetting_journal (s : State) (r : Routed) : (s.payoutSetting r).journal = s.journal := by
  simp [State.payoutSetting]

@[simp] theorem State.payoutSetting_stream (s : State) (r : Routed) : (s.payoutSetting r).stream = s.stream := by
  simp [State.payoutSetting]

@[simp] theorem State.payoutSetting_timebase (s : State) (r : Routed) : (s.payoutSetting r).timebase = s.timebase := by
  simp [State.payoutSetting]

@[simp] theorem State.payoutSetting_resetLine (s : State) (r : Routed) : (s.payoutSetting r).resetLine = s.resetLine := by
  simp [State.payoutSetting]

@[simp] theorem State.payoutSetting_freeIndex (s : State) (r : Routed) : (s.payoutSetting r).freeIndex = s.freeIndex := by
  simp [State.payoutSetting]

@[simp] theorem State.payoutSetting_pending (s : State) (r : Routed) : (s.payoutSetting r).pending = s.pending := by
  simp [State.payoutSetting]

@[simp] theorem State.payoutSetting_lane (s : State) (r : Routed) (j : LaneNo) : (s.payoutSetting r).lane j = s.lane j := State.lane_ext (by simp) j

@[simp] theorem State.payoutSetting_lift (s : State) (r : Routed) (j : LiftNo) : (s.payoutSetting r).lift j = s.lift j := State.lift_ext (by simp) j

@[simp] theorem State.payoutSetting_product (s : State) (r : Routed) (j : ProductCode) : (s.payoutSetting r).product j = s.product j := State.product_ext (by simp) j

/-! ### `State.thresholdSetting` -/

@[simp] theorem State.thresholdSetting_routed (s : State) (r : Routed) : (s.thresholdSetting r).routed = s.routed := by
  simp [State.thresholdSetting]

@[simp] theorem State.thresholdSetting_table (s : State) (r : Routed) : (s.thresholdSetting r).table = s.table := by
  simp [State.thresholdSetting]

@[simp] theorem State.thresholdSetting_arbiter (s : State) (r : Routed) : (s.thresholdSetting r).arbiter = s.arbiter := by
  simp [State.thresholdSetting]

@[simp] theorem State.thresholdSetting_products (s : State) (r : Routed) : (s.thresholdSetting r).products = s.products := by
  simp [State.thresholdSetting]

@[simp] theorem State.thresholdSetting_protection (s : State) (r : Routed) : (s.thresholdSetting r).protection = s.protection := by
  simp [State.thresholdSetting]

@[simp] theorem State.thresholdSetting_serviceKey (s : State) (r : Routed) : (s.thresholdSetting r).serviceKey = s.serviceKey := by
  simp [State.thresholdSetting]

@[simp] theorem State.thresholdSetting_lanes (s : State) (r : Routed) : (s.thresholdSetting r).lanes = s.lanes := by
  simp [State.thresholdSetting]

@[simp] theorem State.thresholdSetting_lifts (s : State) (r : Routed) : (s.thresholdSetting r).lifts = s.lifts := by
  simp [State.thresholdSetting]

@[simp] theorem State.thresholdSetting_journal (s : State) (r : Routed) : (s.thresholdSetting r).journal = s.journal := by
  simp [State.thresholdSetting]

@[simp] theorem State.thresholdSetting_minimumPayout (s : State) (r : Routed) : (s.thresholdSetting r).minimumPayout = s.minimumPayout := by
  simp [State.thresholdSetting]

@[simp] theorem State.thresholdSetting_stream (s : State) (r : Routed) : (s.thresholdSetting r).stream = s.stream := by
  simp [State.thresholdSetting]

@[simp] theorem State.thresholdSetting_timebase (s : State) (r : Routed) : (s.thresholdSetting r).timebase = s.timebase := by
  simp [State.thresholdSetting]

@[simp] theorem State.thresholdSetting_resetLine (s : State) (r : Routed) : (s.thresholdSetting r).resetLine = s.resetLine := by
  simp [State.thresholdSetting]

@[simp] theorem State.thresholdSetting_freeIndex (s : State) (r : Routed) : (s.thresholdSetting r).freeIndex = s.freeIndex := by
  simp [State.thresholdSetting]

@[simp] theorem State.thresholdSetting_pending (s : State) (r : Routed) : (s.thresholdSetting r).pending = s.pending := by
  simp [State.thresholdSetting]

@[simp] theorem State.thresholdSetting_lane (s : State) (r : Routed) (j : LaneNo) : (s.thresholdSetting r).lane j = s.lane j := State.lane_ext (by simp) j

@[simp] theorem State.thresholdSetting_lift (s : State) (r : Routed) (j : LiftNo) : (s.thresholdSetting r).lift j = s.lift j := State.lift_ext (by simp) j

@[simp] theorem State.thresholdSetting_product (s : State) (r : Routed) (j : ProductCode) : (s.thresholdSetting r).product j = s.product j := State.product_ext (by simp) j

/-! ### `State.markSettings` -/

@[simp] theorem State.markSettings_routed (s : State) (r : Routed) : (s.markSettings r).routed = s.routed := by
  simp [State.markSettings]

@[simp] theorem State.markSettings_table (s : State) (r : Routed) : (s.markSettings r).table = s.table := by
  simp [State.markSettings]

@[simp] theorem State.markSettings_arbiter (s : State) (r : Routed) : (s.markSettings r).arbiter = s.arbiter := by
  simp [State.markSettings]

@[simp] theorem State.markSettings_products (s : State) (r : Routed) : (s.markSettings r).products = s.products := by
  simp [State.markSettings]

@[simp] theorem State.markSettings_protection (s : State) (r : Routed) : (s.markSettings r).protection = s.protection := by
  simp [State.markSettings]

@[simp] theorem State.markSettings_serviceKey (s : State) (r : Routed) : (s.markSettings r).serviceKey = s.serviceKey := by
  simp [State.markSettings]

@[simp] theorem State.markSettings_calendar (s : State) (r : Routed) : (s.markSettings r).calendar = s.calendar := by
  simp [State.markSettings]

@[simp] theorem State.markSettings_lanes (s : State) (r : Routed) : (s.markSettings r).lanes = s.lanes := by
  simp [State.markSettings]

@[simp] theorem State.markSettings_lifts (s : State) (r : Routed) : (s.markSettings r).lifts = s.lifts := by
  simp [State.markSettings]

@[simp] theorem State.markSettings_minimumPayout (s : State) (r : Routed) : (s.markSettings r).minimumPayout = s.minimumPayout := by
  simp [State.markSettings]

@[simp] theorem State.markSettings_stream (s : State) (r : Routed) : (s.markSettings r).stream = s.stream := by
  simp [State.markSettings]

@[simp] theorem State.markSettings_timebase (s : State) (r : Routed) : (s.markSettings r).timebase = s.timebase := by
  simp [State.markSettings]

@[simp] theorem State.markSettings_resetLine (s : State) (r : Routed) : (s.markSettings r).resetLine = s.resetLine := by
  simp [State.markSettings]

@[simp] theorem State.markSettings_freeIndex (s : State) (r : Routed) : (s.markSettings r).freeIndex = s.freeIndex := by
  simp [State.markSettings]

@[simp] theorem State.markSettings_pending (s : State) (r : Routed) : (s.markSettings r).pending = s.pending := by
  simp [State.markSettings]

@[simp] theorem State.markSettings_lane (s : State) (r : Routed) (j : LaneNo) : (s.markSettings r).lane j = s.lane j := State.lane_ext (by simp) j

@[simp] theorem State.markSettings_lift (s : State) (r : Routed) (j : LiftNo) : (s.markSettings r).lift j = s.lift j := State.lift_ext (by simp) j

@[simp] theorem State.markSettings_product (s : State) (r : Routed) (j : ProductCode) : (s.markSettings r).product j = s.product j := State.product_ext (by simp) j

/-! ### `State.takeMode` -/

@[simp] theorem State.takeMode_table (s : State) (l : LaneNo) (k : RequestKind) (m : ConfiguredMode) : (s.takeMode l k m).table = s.table := by
  simp only [State.takeMode]
  split
  · rfl
  · next h => rw [State.takeRequest_eq_some] at h; obtain ⟨-, -, rfl⟩ := h; simp

@[simp] theorem State.takeMode_arbiter (s : State) (l : LaneNo) (k : RequestKind) (m : ConfiguredMode) : (s.takeMode l k m).arbiter = s.arbiter := by
  simp only [State.takeMode]
  split
  · rfl
  · next h => rw [State.takeRequest_eq_some] at h; obtain ⟨-, -, rfl⟩ := h; simp

@[simp] theorem State.takeMode_products (s : State) (l : LaneNo) (k : RequestKind) (m : ConfiguredMode) : (s.takeMode l k m).products = s.products := by
  simp only [State.takeMode]
  split
  · rfl
  · next h => rw [State.takeRequest_eq_some] at h; obtain ⟨-, -, rfl⟩ := h; simp

@[simp] theorem State.takeMode_protection (s : State) (l : LaneNo) (k : RequestKind) (m : ConfiguredMode) : (s.takeMode l k m).protection = s.protection := by
  simp only [State.takeMode]
  split
  · rfl
  · next h => rw [State.takeRequest_eq_some] at h; obtain ⟨-, -, rfl⟩ := h; simp

@[simp] theorem State.takeMode_serviceKey (s : State) (l : LaneNo) (k : RequestKind) (m : ConfiguredMode) : (s.takeMode l k m).serviceKey = s.serviceKey := by
  simp only [State.takeMode]
  split
  · rfl
  · next h => rw [State.takeRequest_eq_some] at h; obtain ⟨-, -, rfl⟩ := h; simp

@[simp] theorem State.takeMode_calendar (s : State) (l : LaneNo) (k : RequestKind) (m : ConfiguredMode) : (s.takeMode l k m).calendar = s.calendar := by
  simp only [State.takeMode]
  split
  · rfl
  · next h => rw [State.takeRequest_eq_some] at h; obtain ⟨-, -, rfl⟩ := h; simp

@[simp] theorem State.takeMode_lifts (s : State) (l : LaneNo) (k : RequestKind) (m : ConfiguredMode) : (s.takeMode l k m).lifts = s.lifts := by
  simp only [State.takeMode]
  split
  · rfl
  · next h => rw [State.takeRequest_eq_some] at h; obtain ⟨-, -, rfl⟩ := h; simp

@[simp] theorem State.takeMode_journal (s : State) (l : LaneNo) (k : RequestKind) (m : ConfiguredMode) : (s.takeMode l k m).journal = s.journal := by
  simp only [State.takeMode]
  split
  · rfl
  · next h => rw [State.takeRequest_eq_some] at h; obtain ⟨-, -, rfl⟩ := h; simp

@[simp] theorem State.takeMode_minimumPayout (s : State) (l : LaneNo) (k : RequestKind) (m : ConfiguredMode) : (s.takeMode l k m).minimumPayout = s.minimumPayout := by
  simp only [State.takeMode]
  split
  · rfl
  · next h => rw [State.takeRequest_eq_some] at h; obtain ⟨-, -, rfl⟩ := h; simp

@[simp] theorem State.takeMode_stream (s : State) (l : LaneNo) (k : RequestKind) (m : ConfiguredMode) : (s.takeMode l k m).stream = s.stream := by
  simp only [State.takeMode]
  split
  · rfl
  · next h => rw [State.takeRequest_eq_some] at h; obtain ⟨-, -, rfl⟩ := h; simp

@[simp] theorem State.takeMode_timebase (s : State) (l : LaneNo) (k : RequestKind) (m : ConfiguredMode) : (s.takeMode l k m).timebase = s.timebase := by
  simp only [State.takeMode]
  split
  · rfl
  · next h => rw [State.takeRequest_eq_some] at h; obtain ⟨-, -, rfl⟩ := h; simp

@[simp] theorem State.takeMode_resetLine (s : State) (l : LaneNo) (k : RequestKind) (m : ConfiguredMode) : (s.takeMode l k m).resetLine = s.resetLine := by
  simp only [State.takeMode]
  split
  · rfl
  · next h => rw [State.takeRequest_eq_some] at h; obtain ⟨-, -, rfl⟩ := h; simp

@[simp] theorem State.takeMode_freeIndex (s : State) (l : LaneNo) (k : RequestKind) (m : ConfiguredMode) : (s.takeMode l k m).freeIndex = s.freeIndex := by
  simp only [State.takeMode]
  split
  · rfl
  · next h => rw [State.takeRequest_eq_some] at h; obtain ⟨-, -, rfl⟩ := h; simp

@[simp] theorem State.takeMode_pending (s : State) (l : LaneNo) (k : RequestKind) (m : ConfiguredMode) : (s.takeMode l k m).pending = s.pending := by
  simp only [State.takeMode]
  split
  · rfl
  · next h => rw [State.takeRequest_eq_some] at h; obtain ⟨-, -, rfl⟩ := h; simp

@[simp] theorem State.takeMode_lift (s : State) (l : LaneNo) (k : RequestKind) (m : ConfiguredMode) (j : LiftNo) : (s.takeMode l k m).lift j = s.lift j := State.lift_ext (by simp) j

@[simp] theorem State.takeMode_product (s : State) (l : LaneNo) (k : RequestKind) (m : ConfiguredMode) (j : ProductCode) : (s.takeMode l k m).product j = s.product j := State.product_ext (by simp) j

/-! ### `State.transmitNext` -/

@[simp] theorem State.transmitNext_routed (s : State)  : (s.transmitNext).routed = s.routed := by
  simp only [State.transmitNext]
  repeat' split
  all_goals simp

@[simp] theorem State.transmitNext_table (s : State)  : (s.transmitNext).table = s.table := by
  simp only [State.transmitNext]
  repeat' split
  all_goals simp

@[simp] theorem State.transmitNext_arbiter (s : State)  : (s.transmitNext).arbiter = s.arbiter := by
  simp only [State.transmitNext]
  repeat' split
  all_goals simp

@[simp] theorem State.transmitNext_products (s : State)  : (s.transmitNext).products = s.products := by
  simp only [State.transmitNext]
  repeat' split
  all_goals simp

@[simp] theorem State.transmitNext_protection (s : State)  : (s.transmitNext).protection = s.protection := by
  simp only [State.transmitNext]
  repeat' split
  all_goals simp

@[simp] theorem State.transmitNext_serviceKey (s : State)  : (s.transmitNext).serviceKey = s.serviceKey := by
  simp only [State.transmitNext]
  repeat' split
  all_goals simp

@[simp] theorem State.transmitNext_calendar (s : State)  : (s.transmitNext).calendar = s.calendar := by
  simp only [State.transmitNext]
  repeat' split
  all_goals simp

@[simp] theorem State.transmitNext_lanes (s : State)  : (s.transmitNext).lanes = s.lanes := by
  simp only [State.transmitNext]
  repeat' split
  all_goals simp

@[simp] theorem State.transmitNext_lifts (s : State)  : (s.transmitNext).lifts = s.lifts := by
  simp only [State.transmitNext]
  repeat' split
  all_goals simp

@[simp] theorem State.transmitNext_minimumPayout (s : State)  : (s.transmitNext).minimumPayout = s.minimumPayout := by
  simp only [State.transmitNext]
  repeat' split
  all_goals simp

@[simp] theorem State.transmitNext_stream (s : State)  : (s.transmitNext).stream = s.stream := by
  simp only [State.transmitNext]
  repeat' split
  all_goals simp

@[simp] theorem State.transmitNext_timebase (s : State)  : (s.transmitNext).timebase = s.timebase := by
  simp only [State.transmitNext]
  repeat' split
  all_goals simp

@[simp] theorem State.transmitNext_resetLine (s : State)  : (s.transmitNext).resetLine = s.resetLine := by
  simp only [State.transmitNext]
  repeat' split
  all_goals simp

@[simp] theorem State.transmitNext_pending (s : State)  : (s.transmitNext).pending = s.pending := by
  simp only [State.transmitNext]
  repeat' split
  all_goals simp

@[simp] theorem State.transmitNext_lane (s : State)  (j : LaneNo) : (s.transmitNext).lane j = s.lane j := State.lane_ext (by simp) j

@[simp] theorem State.transmitNext_lift (s : State)  (j : LiftNo) : (s.transmitNext).lift j = s.lift j := State.lift_ext (by simp) j

@[simp] theorem State.transmitNext_product (s : State)  (j : ProductCode) : (s.transmitNext).product j = s.product j := State.product_ext (by simp) j

/-! ### `State.route` -/

@[simp] theorem State.route_table (s : State) (f : RxFrame) : (s.route f).table = s.table := by
  simp only [State.route]
  repeat' split
  all_goals simp

@[simp] theorem State.route_arbiter (s : State) (f : RxFrame) : (s.route f).arbiter = s.arbiter := by
  simp only [State.route]
  repeat' split
  all_goals simp

@[simp] theorem State.route_products (s : State) (f : RxFrame) : (s.route f).products = s.products := by
  simp only [State.route]
  repeat' split
  all_goals simp

@[simp] theorem State.route_protection (s : State) (f : RxFrame) : (s.route f).protection = s.protection := by
  simp only [State.route]
  repeat' split
  all_goals simp

@[simp] theorem State.route_serviceKey (s : State) (f : RxFrame) : (s.route f).serviceKey = s.serviceKey := by
  simp only [State.route]
  repeat' split
  all_goals simp

@[simp] theorem State.route_calendar (s : State) (f : RxFrame) : (s.route f).calendar = s.calendar := by
  simp only [State.route]
  repeat' split
  all_goals simp

@[simp] theorem State.route_lanes (s : State) (f : RxFrame) : (s.route f).lanes = s.lanes := by
  simp only [State.route]
  repeat' split
  all_goals simp

@[simp] theorem State.route_lifts (s : State) (f : RxFrame) : (s.route f).lifts = s.lifts := by
  simp only [State.route]
  repeat' split
  all_goals simp

@[simp] theorem State.route_journal (s : State) (f : RxFrame) : (s.route f).journal = s.journal := by
  simp only [State.route]
  repeat' split
  all_goals simp

@[simp] theorem State.route_minimumPayout (s : State) (f : RxFrame) : (s.route f).minimumPayout = s.minimumPayout := by
  simp only [State.route]
  repeat' split
  all_goals simp

@[simp] theorem State.route_stream (s : State) (f : RxFrame) : (s.route f).stream = s.stream := by
  simp only [State.route]
  repeat' split
  all_goals simp

@[simp] theorem State.route_timebase (s : State) (f : RxFrame) : (s.route f).timebase = s.timebase := by
  simp only [State.route]
  repeat' split
  all_goals simp

@[simp] theorem State.route_resetLine (s : State) (f : RxFrame) : (s.route f).resetLine = s.resetLine := by
  simp only [State.route]
  repeat' split
  all_goals simp

@[simp] theorem State.route_freeIndex (s : State) (f : RxFrame) : (s.route f).freeIndex = s.freeIndex := by
  simp only [State.route]
  repeat' split
  all_goals simp

@[simp] theorem State.route_pending (s : State) (f : RxFrame) : (s.route f).pending = s.pending := by
  simp only [State.route]
  repeat' split
  all_goals simp

@[simp] theorem State.route_lane (s : State) (f : RxFrame) (j : LaneNo) : (s.route f).lane j = s.lane j := State.lane_ext (by simp) j

@[simp] theorem State.route_lift (s : State) (f : RxFrame) (j : LiftNo) : (s.route f).lift j = s.lift j := State.lift_ext (by simp) j

@[simp] theorem State.route_product (s : State) (f : RxFrame) (j : ProductCode) : (s.route f).product j = s.product j := State.product_ext (by simp) j

/-! ### `State.afterRow` -/

@[simp] theorem State.afterRow_routed (s : State) (c : Chunk) : (s.afterRow c).routed = s.routed := by
  simp only [State.afterRow]
  repeat' split
  all_goals simp

@[simp] theorem State.afterRow_table (s : State) (c : Chunk) : (s.afterRow c).table = s.table := by
  simp only [State.afterRow]
  repeat' split
  all_goals simp

@[simp] theorem State.afterRow_arbiter (s : State) (c : Chunk) : (s.afterRow c).arbiter = s.arbiter := by
  simp only [State.afterRow]
  repeat' split
  all_goals simp

@[simp] theorem State.afterRow_products (s : State) (c : Chunk) : (s.afterRow c).products = s.products := by
  simp only [State.afterRow]
  repeat' split
  all_goals simp

@[simp] theorem State.afterRow_protection (s : State) (c : Chunk) : (s.afterRow c).protection = s.protection := by
  simp only [State.afterRow]
  repeat' split
  all_goals simp

@[simp] theorem State.afterRow_serviceKey (s : State) (c : Chunk) : (s.afterRow c).serviceKey = s.serviceKey := by
  simp only [State.afterRow]
  repeat' split
  all_goals simp

@[simp] theorem State.afterRow_calendar (s : State) (c : Chunk) : (s.afterRow c).calendar = s.calendar := by
  simp only [State.afterRow]
  repeat' split
  all_goals simp

@[simp] theorem State.afterRow_lanes (s : State) (c : Chunk) : (s.afterRow c).lanes = s.lanes := by
  simp only [State.afterRow]
  repeat' split
  all_goals simp

@[simp] theorem State.afterRow_lifts (s : State) (c : Chunk) : (s.afterRow c).lifts = s.lifts := by
  simp only [State.afterRow]
  repeat' split
  all_goals simp

@[simp] theorem State.afterRow_journal (s : State) (c : Chunk) : (s.afterRow c).journal = s.journal := by
  simp only [State.afterRow]
  repeat' split
  all_goals simp

@[simp] theorem State.afterRow_minimumPayout (s : State) (c : Chunk) : (s.afterRow c).minimumPayout = s.minimumPayout := by
  simp only [State.afterRow]
  repeat' split
  all_goals simp

@[simp] theorem State.afterRow_timebase (s : State) (c : Chunk) : (s.afterRow c).timebase = s.timebase := by
  simp only [State.afterRow]
  repeat' split
  all_goals simp

@[simp] theorem State.afterRow_resetLine (s : State) (c : Chunk) : (s.afterRow c).resetLine = s.resetLine := by
  simp only [State.afterRow]
  repeat' split
  all_goals simp

@[simp] theorem State.afterRow_freeIndex (s : State) (c : Chunk) : (s.afterRow c).freeIndex = s.freeIndex := by
  simp only [State.afterRow]
  repeat' split
  all_goals simp

@[simp] theorem State.afterRow_pending (s : State) (c : Chunk) : (s.afterRow c).pending = s.pending := by
  simp only [State.afterRow]
  repeat' split
  all_goals simp

@[simp] theorem State.afterRow_lane (s : State) (c : Chunk) (j : LaneNo) : (s.afterRow c).lane j = s.lane j := State.lane_ext (by simp) j

@[simp] theorem State.afterRow_lift (s : State) (c : Chunk) (j : LiftNo) : (s.afterRow c).lift j = s.lift j := State.lift_ext (by simp) j

@[simp] theorem State.afterRow_product (s : State) (c : Chunk) (j : ProductCode) : (s.afterRow c).product j = s.product j := State.product_ext (by simp) j

/-! ### `State.startReset` -/

@[simp] theorem State.startReset_products (s : State) (r : Option Tag) : (s.startReset r).products = s.products := by
  simp [State.startReset]

@[simp] theorem State.startReset_protection (s : State) (r : Option Tag) : (s.startReset r).protection = s.protection := by
  simp [State.startReset]

@[simp] theorem State.startReset_serviceKey (s : State) (r : Option Tag) : (s.startReset r).serviceKey = s.serviceKey := by
  simp [State.startReset]

@[simp] theorem State.startReset_calendar (s : State) (r : Option Tag) : (s.startReset r).calendar = s.calendar := by
  simp [State.startReset]

@[simp] theorem State.startReset_minimumPayout (s : State) (r : Option Tag) : (s.startReset r).minimumPayout = s.minimumPayout := by
  simp [State.startReset]

@[simp] theorem State.startReset_timebase (s : State) (r : Option Tag) : (s.startReset r).timebase = s.timebase := by
  simp [State.startReset]

@[simp] theorem State.startReset_resetLine (s : State) (r : Option Tag) : (s.startReset r).resetLine = s.resetLine := by
  simp [State.startReset]

@[simp] theorem State.startReset_freeIndex (s : State) (r : Option Tag) : (s.startReset r).freeIndex = s.freeIndex := by
  simp [State.startReset]

@[simp] theorem State.startReset_pending (s : State) (r : Option Tag) : (s.startReset r).pending = s.pending := by
  simp [State.startReset]

@[simp] theorem State.startReset_product (s : State) (r : Option Tag) (j : ProductCode) : (s.startReset r).product j = s.product j := State.product_ext (by simp) j

/-! ### `State.tick` -/

@[simp] theorem State.tick_trunk (s : State)  : (s.tick).trunk = s.trunk := by
  simp [State.tick]

@[simp] theorem State.tick_routed (s : State)  : (s.tick).routed = s.routed := by
  simp [State.tick]

@[simp] theorem State.tick_table (s : State)  : (s.tick).table = s.table := by
  simp [State.tick]

@[simp] theorem State.tick_arbiter (s : State)  : (s.tick).arbiter = s.arbiter := by
  simp [State.tick]

@[simp] theorem State.tick_products (s : State)  : (s.tick).products = s.products := by
  simp [State.tick]

@[simp] theorem State.tick_protection (s : State)  : (s.tick).protection = s.protection := by
  simp [State.tick]

@[simp] theorem State.tick_journal (s : State)  : (s.tick).journal = s.journal := by
  simp [State.tick]

@[simp] theorem State.tick_minimumPayout (s : State)  : (s.tick).minimumPayout = s.minimumPayout := by
  simp [State.tick]

@[simp] theorem State.tick_stream (s : State)  : (s.tick).stream = s.stream := by
  simp [State.tick]

@[simp] theorem State.tick_freeIndex (s : State)  : (s.tick).freeIndex = s.freeIndex := by
  simp [State.tick]

@[simp] theorem State.tick_pending (s : State)  : (s.tick).pending = s.pending := by
  simp [State.tick]

@[simp] theorem State.tick_product (s : State)  (j : ProductCode) : (s.tick).product j = s.product j := State.product_ext (by simp) j

/-! ### Taking a raise, a record, or a refund request that fails its form check -/

@[simp] theorem State.setRaises_routed (s : State) (source : RaiseSource) (r : List Raise) : (s.setRaises source r).routed = s.routed := by
  cases source <;> rfl

@[simp] theorem State.setRaises_arbiter (s : State) (source : RaiseSource) (r : List Raise) : (s.setRaises source r).arbiter = s.arbiter := by
  cases source <;> rfl

@[simp] theorem State.setRaises_products (s : State) (source : RaiseSource) (r : List Raise) : (s.setRaises source r).products = s.products := by
  cases source <;> rfl

@[simp] theorem State.setRaises_protection (s : State) (source : RaiseSource) (r : List Raise) : (s.setRaises source r).protection = s.protection := by
  cases source <;> rfl

@[simp] theorem State.setRaises_serviceKey (s : State) (source : RaiseSource) (r : List Raise) : (s.setRaises source r).serviceKey = s.serviceKey := by
  cases source <;> rfl

@[simp] theorem State.setRaises_calendar (s : State) (source : RaiseSource) (r : List Raise) : (s.setRaises source r).calendar = s.calendar := by
  cases source <;> rfl

@[simp] theorem State.setRaises_lifts (s : State) (source : RaiseSource) (r : List Raise) : (s.setRaises source r).lifts = s.lifts := by
  cases source <;> rfl

@[simp] theorem State.setRaises_minimumPayout (s : State) (source : RaiseSource) (r : List Raise) : (s.setRaises source r).minimumPayout = s.minimumPayout := by
  cases source <;> rfl

@[simp] theorem State.setRaises_timebase (s : State) (source : RaiseSource) (r : List Raise) : (s.setRaises source r).timebase = s.timebase := by
  cases source <;> rfl

@[simp] theorem State.setRaises_resetLine (s : State) (source : RaiseSource) (r : List Raise) : (s.setRaises source r).resetLine = s.resetLine := by
  cases source <;> rfl

@[simp] theorem State.setRaises_freeIndex (s : State) (source : RaiseSource) (r : List Raise) : (s.setRaises source r).freeIndex = s.freeIndex := by
  cases source <;> rfl

@[simp] theorem State.setRaises_pending (s : State) (source : RaiseSource) (r : List Raise) : (s.setRaises source r).pending = s.pending := by
  cases source <;> rfl

@[simp] theorem State.setRecords_trunk (s : State) (owner : RecordOwner) (r : List RecordBody) : (s.setRecords owner r).trunk = s.trunk := by
  cases owner <;> rfl

@[simp] theorem State.setRecords_routed (s : State) (owner : RecordOwner) (r : List RecordBody) : (s.setRecords owner r).routed = s.routed := by
  cases owner <;> rfl

@[simp] theorem State.setRecords_arbiter (s : State) (owner : RecordOwner) (r : List RecordBody) : (s.setRecords owner r).arbiter = s.arbiter := by
  cases owner <;> rfl

@[simp] theorem State.setRecords_products (s : State) (owner : RecordOwner) (r : List RecordBody) : (s.setRecords owner r).products = s.products := by
  cases owner <;> rfl

@[simp] theorem State.setRecords_protection (s : State) (owner : RecordOwner) (r : List RecordBody) : (s.setRecords owner r).protection = s.protection := by
  cases owner <;> rfl

@[simp] theorem State.setRecords_serviceKey (s : State) (owner : RecordOwner) (r : List RecordBody) : (s.setRecords owner r).serviceKey = s.serviceKey := by
  cases owner <;> rfl

@[simp] theorem State.setRecords_calendar (s : State) (owner : RecordOwner) (r : List RecordBody) : (s.setRecords owner r).calendar = s.calendar := by
  cases owner <;> rfl

@[simp] theorem State.setRecords_lifts (s : State) (owner : RecordOwner) (r : List RecordBody) : (s.setRecords owner r).lifts = s.lifts := by
  cases owner <;> rfl

@[simp] theorem State.setRecords_journal (s : State) (owner : RecordOwner) (r : List RecordBody) : (s.setRecords owner r).journal = s.journal := by
  cases owner <;> rfl

@[simp] theorem State.setRecords_minimumPayout (s : State) (owner : RecordOwner) (r : List RecordBody) : (s.setRecords owner r).minimumPayout = s.minimumPayout := by
  cases owner <;> rfl

@[simp] theorem State.setRecords_stream (s : State) (owner : RecordOwner) (r : List RecordBody) : (s.setRecords owner r).stream = s.stream := by
  cases owner <;> rfl

@[simp] theorem State.setRecords_timebase (s : State) (owner : RecordOwner) (r : List RecordBody) : (s.setRecords owner r).timebase = s.timebase := by
  cases owner <;> rfl

@[simp] theorem State.setRecords_resetLine (s : State) (owner : RecordOwner) (r : List RecordBody) : (s.setRecords owner r).resetLine = s.resetLine := by
  cases owner <;> rfl

@[simp] theorem State.setRecords_freeIndex (s : State) (owner : RecordOwner) (r : List RecordBody) : (s.setRecords owner r).freeIndex = s.freeIndex := by
  cases owner <;> rfl

@[simp] theorem State.setRecords_pending (s : State) (owner : RecordOwner) (r : List RecordBody) : (s.setRecords owner r).pending = s.pending := by
  cases owner <;> rfl

theorem State.takeBadRefund_eq_some {s s' : State} {r : Routed} :
    s.takeBadRefund = some (r, s') ↔
      s.nextFor .refundUnit = some r ∧ r.kind = .refundRequest ∧ refundFormOk r.body = false
        ∧ s' = s.dropNextFor .refundUnit := by
  simp only [State.takeBadRefund]
  split
  · next q t h =>
    rw [State.takeRequest_eq_some] at h
    obtain ⟨h1, h2, rfl⟩ := h
    split
    · next hf =>
      simp only [reduceCtorEq, false_iff, h1, Option.some.injEq]
      rintro ⟨rfl, -, h, -⟩
      simp [h] at hf
    · next hf =>
      simp only [Option.some.injEq, Prod.mk.injEq, h1]
      constructor
      · rintro ⟨rfl, rfl⟩; exact ⟨rfl, h2, by simpa using hf, rfl⟩
      · rintro ⟨rfl, -, -, rfl⟩; exact ⟨rfl, rfl⟩
  · next h =>
    simp only [reduceCtorEq, false_iff]
    rintro ⟨h1, h2, -, -⟩
    rw [State.takeRequest_of h1 h2] at h
    simp at h

end Sys2Proof.Machine
end

