-- ==== Sys2Proof/Laws/Lanes.lean ====
section
/-! SUPPORT. What the operations inside a lane event leave unchanged: one lemma per field, so that no later proof unfolds them. -/
namespace Sys2Proof.Machine

/-! ### `Lane.tell` -/

@[simp] theorem Lane.tell_presence (x : Lane) (env : LaneEnv) (i : LiftNo) (m : LaneMessage) : (x.tell env i m).presence = x.presence := by
  simp only [Lane.tell]; repeat' split
  all_goals rfl
@[simp] theorem Lane.tell_keyPosition (x : Lane) (env : LaneEnv) (i : LiftNo) (m : LaneMessage) : (x.tell env i m).keyPosition = x.keyPosition := by
  simp only [Lane.tell]; repeat' split
  all_goals rfl
@[simp] theorem Lane.tell_configuredMode (x : Lane) (env : LaneEnv) (i : LiftNo) (m : LaneMessage) : (x.tell env i m).configuredMode = x.configuredMode := by
  simp only [Lane.tell]; repeat' split
  all_goals rfl
@[simp] theorem Lane.tell_actuationFail (x : Lane) (env : LaneEnv) (i : LiftNo) (m : LaneMessage) : (x.tell env i m).actuationFail = x.actuationFail := by
  simp only [Lane.tell]; repeat' split
  all_goals rfl
@[simp] theorem Lane.tell_stuckOpen (x : Lane) (env : LaneEnv) (i : LiftNo) (m : LaneMessage) : (x.tell env i m).stuckOpen = x.stuckOpen := by
  simp only [Lane.tell]; repeat' split
  all_goals rfl
@[simp] theorem Lane.tell_primaryLift (x : Lane) (env : LaneEnv) (i : LiftNo) (m : LaneMessage) : (x.tell env i m).primaryLift = x.primaryLift := by
  simp only [Lane.tell]; repeat' split
  all_goals rfl
@[simp] theorem Lane.tell_secondaryLift (x : Lane) (env : LaneEnv) (i : LiftNo) (m : LaneMessage) : (x.tell env i m).secondaryLift = x.secondaryLift := by
  simp only [Lane.tell]; repeat' split
  all_goals rfl
@[simp] theorem Lane.tell_liftInOperation (x : Lane) (env : LaneEnv) (i : LiftNo) (m : LaneMessage) : (x.tell env i m).liftInOperation = x.liftInOperation := by
  simp only [Lane.tell]; repeat' split
  all_goals rfl
@[simp] theorem Lane.tell_servedLift (x : Lane) (env : LaneEnv) (i : LiftNo) (m : LaneMessage) : (x.tell env i m).servedLift = x.servedLift := by
  simp only [Lane.tell]; repeat' split
  all_goals rfl
@[simp] theorem Lane.tell_dayOpen (x : Lane) (env : LaneEnv) (i : LiftNo) (m : LaneMessage) : (x.tell env i m).dayOpen = x.dayOpen := by
  simp only [Lane.tell]; repeat' split
  all_goals rfl
@[simp] theorem Lane.tell_effective (x : Lane) (env : LaneEnv) (i : LiftNo) (m : LaneMessage) : (x.tell env i m).effective = x.effective := by
  simp only [Lane.tell]; repeat' split
  all_goals rfl
@[simp] theorem Lane.tell_admission (x : Lane) (env : LaneEnv) (i : LiftNo) (m : LaneMessage) : (x.tell env i m).admission = x.admission := by
  simp only [Lane.tell]; repeat' split
  all_goals rfl
@[simp] theorem Lane.tell_unlock (x : Lane) (env : LaneEnv) (i : LiftNo) (m : LaneMessage) : (x.tell env i m).unlock = x.unlock := by
  simp only [Lane.tell]; repeat' split
  all_goals rfl
@[simp] theorem Lane.tell_latchReleased (x : Lane) (env : LaneEnv) (i : LiftNo) (m : LaneMessage) : (x.tell env i m).latchReleased = x.latchReleased := by
  simp only [Lane.tell]; repeat' split
  all_goals rfl
@[simp] theorem Lane.tell_rotationLine (x : Lane) (env : LaneEnv) (i : LiftNo) (m : LaneMessage) : (x.tell env i m).rotationLine = x.rotationLine := by
  simp only [Lane.tell]; repeat' split
  all_goals rfl
@[simp] theorem Lane.tell_driveWindow (x : Lane) (env : LaneEnv) (i : LiftNo) (m : LaneMessage) : (x.tell env i m).driveWindow = x.driveWindow := by
  simp only [Lane.tell]; repeat' split
  all_goals rfl
@[simp] theorem Lane.tell_releaseWatch (x : Lane) (env : LaneEnv) (i : LiftNo) (m : LaneMessage) : (x.tell env i m).releaseWatch = x.releaseWatch := by
  simp only [Lane.tell]; repeat' split
  all_goals rfl
@[simp] theorem Lane.tell_counters (x : Lane) (env : LaneEnv) (i : LiftNo) (m : LaneMessage) : (x.tell env i m).counters = x.counters := by
  simp only [Lane.tell]; repeat' split
  all_goals rfl
@[simp] theorem Lane.tell_linkErrors (x : Lane) (env : LaneEnv) (i : LiftNo) (m : LaneMessage) : (x.tell env i m).linkErrors = x.linkErrors := by
  simp only [Lane.tell]; repeat' split
  all_goals rfl
@[simp] theorem Lane.tell_showSlot (x : Lane) (env : LaneEnv) (i : LiftNo) (m : LaneMessage) : (x.tell env i m).showSlot = x.showSlot := by
  simp only [Lane.tell]; repeat' split
  all_goals rfl
@[simp] theorem Lane.tell_sending (x : Lane) (env : LaneEnv) (i : LiftNo) (m : LaneMessage) : (x.tell env i m).sending = x.sending := by
  simp only [Lane.tell]; repeat' split
  all_goals rfl
@[simp] theorem Lane.tell_lastShown (x : Lane) (env : LaneEnv) (i : LiftNo) (m : LaneMessage) : (x.tell env i m).lastShown = x.lastShown := by
  simp only [Lane.tell]; repeat' split
  all_goals rfl
@[simp] theorem Lane.tell_validationInFlight (x : Lane) (env : LaneEnv) (i : LiftNo) (m : LaneMessage) : (x.tell env i m).validationInFlight = x.validationInFlight := by
  simp only [Lane.tell]; repeat' split
  all_goals rfl
@[simp] theorem Lane.tell_waitingTap (x : Lane) (env : LaneEnv) (i : LiftNo) (m : LaneMessage) : (x.tell env i m).waitingTap = x.waitingTap := by
  simp only [Lane.tell]; repeat' split
  all_goals rfl
@[simp] theorem Lane.tell_emptiedTaps (x : Lane) (env : LaneEnv) (i : LiftNo) (m : LaneMessage) : (x.tell env i m).emptiedTaps = x.emptiedTaps := by
  simp only [Lane.tell]; repeat' split
  all_goals rfl
@[simp] theorem Lane.tell_lastRequest (x : Lane) (env : LaneEnv) (i : LiftNo) (m : LaneMessage) : (x.tell env i m).lastRequest = x.lastRequest := by
  simp only [Lane.tell]; repeat' split
  all_goals rfl
@[simp] theorem Lane.tell_passageWindow (x : Lane) (env : LaneEnv) (i : LiftNo) (m : LaneMessage) : (x.tell env i m).passageWindow = x.passageWindow := by
  simp only [Lane.tell]; repeat' split
  all_goals rfl
@[simp] theorem Lane.tell_holdTimeout (x : Lane) (env : LaneEnv) (i : LiftNo) (m : LaneMessage) : (x.tell env i m).holdTimeout = x.holdTimeout := by
  simp only [Lane.tell]; repeat' split
  all_goals rfl
@[simp] theorem Lane.tell_rowOps (x : Lane) (env : LaneEnv) (i : LiftNo) (m : LaneMessage) : (x.tell env i m).rowOps = x.rowOps := by
  simp only [Lane.tell]; repeat' split
  all_goals rfl
@[simp] theorem Lane.tell_records (x : Lane) (env : LaneEnv) (i : LiftNo) (m : LaneMessage) : (x.tell env i m).records = x.records := by
  simp only [Lane.tell]; repeat' split
  all_goals rfl
@[simp] theorem Lane.tell_raises (x : Lane) (env : LaneEnv) (i : LiftNo) (m : LaneMessage) : (x.tell env i m).raises = x.raises := by
  simp only [Lane.tell]; repeat' split
  all_goals rfl
@[simp] theorem Lane.tell_resetsPending (x : Lane) (env : LaneEnv) (i : LiftNo) (m : LaneMessage) : (x.tell env i m).resetsPending = x.resetsPending := by
  simp only [Lane.tell]; repeat' split
  all_goals rfl

/-! ### `Lane.handRowOp` -/

@[simp] theorem Lane.handRowOp_presence (x : Lane) (op : RowOp) : (x.handRowOp op).presence = x.presence := by
  simp only [Lane.handRowOp]; split <;> rfl
@[simp] theorem Lane.handRowOp_keyPosition (x : Lane) (op : RowOp) : (x.handRowOp op).keyPosition = x.keyPosition := by
  simp only [Lane.handRowOp]; split <;> rfl
@[simp] theorem Lane.handRowOp_configuredMode (x : Lane) (op : RowOp) : (x.handRowOp op).configuredMode = x.configuredMode := by
  simp only [Lane.handRowOp]; split <;> rfl
@[simp] theorem Lane.handRowOp_actuationFail (x : Lane) (op : RowOp) : (x.handRowOp op).actuationFail = x.actuationFail := by
  simp only [Lane.handRowOp]; split <;> rfl
@[simp] theorem Lane.handRowOp_stuckOpen (x : Lane) (op : RowOp) : (x.handRowOp op).stuckOpen = x.stuckOpen := by
  simp only [Lane.handRowOp]; split <;> rfl
@[simp] theorem Lane.handRowOp_primaryLift (x : Lane) (op : RowOp) : (x.handRowOp op).primaryLift = x.primaryLift := by
  simp only [Lane.handRowOp]; split <;> rfl
@[simp] theorem Lane.handRowOp_secondaryLift (x : Lane) (op : RowOp) : (x.handRowOp op).secondaryLift = x.secondaryLift := by
  simp only [Lane.handRowOp]; split <;> rfl
@[simp] theorem Lane.handRowOp_liftInOperation (x : Lane) (op : RowOp) : (x.handRowOp op).liftInOperation = x.liftInOperation := by
  simp only [Lane.handRowOp]; split <;> rfl
@[simp] theorem Lane.handRowOp_servedLift (x : Lane) (op : RowOp) : (x.handRowOp op).servedLift = x.servedLift := by
  simp only [Lane.handRowOp]; split <;> rfl
@[simp] theorem Lane.handRowOp_dayOpen (x : Lane) (op : RowOp) : (x.handRowOp op).dayOpen = x.dayOpen := by
  simp only [Lane.handRowOp]; split <;> rfl
@[simp] theorem Lane.handRowOp_effective (x : Lane) (op : RowOp) : (x.handRowOp op).effective = x.effective := by
  simp only [Lane.handRowOp]; split <;> rfl
@[simp] theorem Lane.handRowOp_admission (x : Lane) (op : RowOp) : (x.handRowOp op).admission = x.admission := by
  simp only [Lane.handRowOp]; split <;> rfl
@[simp] theorem Lane.handRowOp_unlock (x : Lane) (op : RowOp) : (x.handRowOp op).unlock = x.unlock := by
  simp only [Lane.handRowOp]; split <;> rfl
@[simp] theorem Lane.handRowOp_latchReleased (x : Lane) (op : RowOp) : (x.handRowOp op).latchReleased = x.latchReleased := by
  simp only [Lane.handRowOp]; split <;> rfl
@[simp] theorem Lane.handRowOp_rotationLine (x : Lane) (op : RowOp) : (x.handRowOp op).rotationLine = x.rotationLine := by
  simp only [Lane.handRowOp]; split <;> rfl
@[simp] theorem Lane.handRowOp_driveWindow (x : Lane) (op : RowOp) : (x.handRowOp op).driveWindow = x.driveWindow := by
  simp only [Lane.handRowOp]; split <;> rfl
@[simp] theorem Lane.handRowOp_releaseWatch (x : Lane) (op : RowOp) : (x.handRowOp op).releaseWatch = x.releaseWatch := by
  simp only [Lane.handRowOp]; split <;> rfl
@[simp] theorem Lane.handRowOp_counters (x : Lane) (op : RowOp) : (x.handRowOp op).counters = x.counters := by
  simp only [Lane.handRowOp]; split <;> rfl
@[simp] theorem Lane.handRowOp_linkErrors (x : Lane) (op : RowOp) : (x.handRowOp op).linkErrors = x.linkErrors := by
  simp only [Lane.handRowOp]; split <;> rfl
@[simp] theorem Lane.handRowOp_showSlot (x : Lane) (op : RowOp) : (x.handRowOp op).showSlot = x.showSlot := by
  simp only [Lane.handRowOp]; split <;> rfl
@[simp] theorem Lane.handRowOp_sending (x : Lane) (op : RowOp) : (x.handRowOp op).sending = x.sending := by
  simp only [Lane.handRowOp]; split <;> rfl
@[simp] theorem Lane.handRowOp_lastShown (x : Lane) (op : RowOp) : (x.handRowOp op).lastShown = x.lastShown := by
  simp only [Lane.handRowOp]; split <;> rfl
@[simp] theorem Lane.handRowOp_validationInFlight (x : Lane) (op : RowOp) : (x.handRowOp op).validationInFlight = x.validationInFlight := by
  simp only [Lane.handRowOp]; split <;> rfl
@[simp] theorem Lane.handRowOp_waitingTap (x : Lane) (op : RowOp) : (x.handRowOp op).waitingTap = x.waitingTap := by
  simp only [Lane.handRowOp]; split <;> rfl
@[simp] theorem Lane.handRowOp_emptiedTaps (x : Lane) (op : RowOp) : (x.handRowOp op).emptiedTaps = x.emptiedTaps := by
  simp only [Lane.handRowOp]; split <;> rfl
@[simp] theorem Lane.handRowOp_lastRequest (x : Lane) (op : RowOp) : (x.handRowOp op).lastRequest = x.lastRequest := by
  simp only [Lane.handRowOp]; split <;> rfl
@[simp] theorem Lane.handRowOp_passageWindow (x : Lane) (op : RowOp) : (x.handRowOp op).passageWindow = x.passageWindow := by
  simp only [Lane.handRowOp]; split <;> rfl
@[simp] theorem Lane.handRowOp_holdTimeout (x : Lane) (op : RowOp) : (x.handRowOp op).holdTimeout = x.holdTimeout := by
  simp only [Lane.handRowOp]; split <;> rfl
@[simp] theorem Lane.handRowOp_toLifts (x : Lane) (op : RowOp) : (x.handRowOp op).toLifts = x.toLifts := by
  simp only [Lane.handRowOp]; split <;> rfl
@[simp] theorem Lane.handRowOp_records (x : Lane) (op : RowOp) : (x.handRowOp op).records = x.records := by
  simp only [Lane.handRowOp]; split <;> rfl
@[simp] theorem Lane.handRowOp_raises (x : Lane) (op : RowOp) : (x.handRowOp op).raises = x.raises := by
  simp only [Lane.handRowOp]; split <;> rfl
@[simp] theorem Lane.handRowOp_resetsPending (x : Lane) (op : RowOp) : (x.handRowOp op).resetsPending = x.resetsPending := by
  simp only [Lane.handRowOp]; split <;> rfl

/-! ### `Lane.raise` -/

@[simp] theorem Lane.raise_presence (x : Lane) (r : Raise) : (x.raise r).presence = x.presence := rfl
@[simp] theorem Lane.raise_keyPosition (x : Lane) (r : Raise) : (x.raise r).keyPosition = x.keyPosition := rfl
@[simp] theorem Lane.raise_configuredMode (x : Lane) (r : Raise) : (x.raise r).configuredMode = x.configuredMode := rfl
@[simp] theorem Lane.raise_actuationFail (x : Lane) (r : Raise) : (x.raise r).actuationFail = x.actuationFail := rfl
@[simp] theorem Lane.raise_stuckOpen (x : Lane) (r : Raise) : (x.raise r).stuckOpen = x.stuckOpen := rfl
@[simp] theorem Lane.raise_primaryLift (x : Lane) (r : Raise) : (x.raise r).primaryLift = x.primaryLift := rfl
@[simp] theorem Lane.raise_secondaryLift (x : Lane) (r : Raise) : (x.raise r).secondaryLift = x.secondaryLift := rfl
@[simp] theorem Lane.raise_liftInOperation (x : Lane) (r : Raise) : (x.raise r).liftInOperation = x.liftInOperation := rfl
@[simp] theorem Lane.raise_servedLift (x : Lane) (r : Raise) : (x.raise r).servedLift = x.servedLift := rfl
@[simp] theorem Lane.raise_dayOpen (x : Lane) (r : Raise) : (x.raise r).dayOpen = x.dayOpen := rfl
@[simp] theorem Lane.raise_effective (x : Lane) (r : Raise) : (x.raise r).effective = x.effective := rfl
@[simp] theorem Lane.raise_admission (x : Lane) (r : Raise) : (x.raise r).admission = x.admission := rfl
@[simp] theorem Lane.raise_unlock (x : Lane) (r : Raise) : (x.raise r).unlock = x.unlock := rfl
@[simp] theorem Lane.raise_latchReleased (x : Lane) (r : Raise) : (x.raise r).latchReleased = x.latchReleased := rfl
@[simp] theorem Lane.raise_rotationLine (x : Lane) (r : Raise) : (x.raise r).rotationLine = x.rotationLine := rfl
@[simp] theorem Lane.raise_driveWindow (x : Lane) (r : Raise) : (x.raise r).driveWindow = x.driveWindow := rfl
@[simp] theorem Lane.raise_releaseWatch (x : Lane) (r : Raise) : (x.raise r).releaseWatch = x.releaseWatch := rfl
@[simp] theorem Lane.raise_counters (x : Lane) (r : Raise) : (x.raise r).counters = x.counters := rfl
@[simp] theorem Lane.raise_linkErrors (x : Lane) (r : Raise) : (x.raise r).linkErrors = x.linkErrors := rfl
@[simp] theorem Lane.raise_showSlot (x : Lane) (r : Raise) : (x.raise r).showSlot = x.showSlot := rfl
@[simp] theorem Lane.raise_sending (x : Lane) (r : Raise) : (x.raise r).sending = x.sending := rfl
@[simp] theorem Lane.raise_lastShown (x : Lane) (r : Raise) : (x.raise r).lastShown = x.lastShown := rfl
@[simp] theorem Lane.raise_validationInFlight (x : Lane) (r : Raise) : (x.raise r).validationInFlight = x.validationInFlight := rfl
@[simp] theorem Lane.raise_waitingTap (x : Lane) (r : Raise) : (x.raise r).waitingTap = x.waitingTap := rfl
@[simp] theorem Lane.raise_emptiedTaps (x : Lane) (r : Raise) : (x.raise r).emptiedTaps = x.emptiedTaps := rfl
@[simp] theorem Lane.raise_lastRequest (x : Lane) (r : Raise) : (x.raise r).lastRequest = x.lastRequest := rfl
@[simp] theorem Lane.raise_passageWindow (x : Lane) (r : Raise) : (x.raise r).passageWindow = x.passageWindow := rfl
@[simp] theorem Lane.raise_holdTimeout (x : Lane) (r : Raise) : (x.raise r).holdTimeout = x.holdTimeout := rfl
@[simp] theorem Lane.raise_rowOps (x : Lane) (r : Raise) : (x.raise r).rowOps = x.rowOps := rfl
@[simp] theorem Lane.raise_toLifts (x : Lane) (r : Raise) : (x.raise r).toLifts = x.toLifts := rfl
@[simp] theorem Lane.raise_records (x : Lane) (r : Raise) : (x.raise r).records = x.records := rfl
@[simp] theorem Lane.raise_resetsPending (x : Lane) (r : Raise) : (x.raise r).resetsPending = x.resetsPending := rfl

/-! ### `Lane.show` -/

@[simp] theorem Lane.show_presence (x : Lane) (g : Signal) (r : ShowReason) (n : Nat) : (x.show g r n).presence = x.presence := rfl
@[simp] theorem Lane.show_keyPosition (x : Lane) (g : Signal) (r : ShowReason) (n : Nat) : (x.show g r n).keyPosition = x.keyPosition := rfl
@[simp] theorem Lane.show_configuredMode (x : Lane) (g : Signal) (r : ShowReason) (n : Nat) : (x.show g r n).configuredMode = x.configuredMode := rfl
@[simp] theorem Lane.show_actuationFail (x : Lane) (g : Signal) (r : ShowReason) (n : Nat) : (x.show g r n).actuationFail = x.actuationFail := rfl
@[simp] theorem Lane.show_stuckOpen (x : Lane) (g : Signal) (r : ShowReason) (n : Nat) : (x.show g r n).stuckOpen = x.stuckOpen := rfl
@[simp] theorem Lane.show_primaryLift (x : Lane) (g : Signal) (r : ShowReason) (n : Nat) : (x.show g r n).primaryLift = x.primaryLift := rfl
@[simp] theorem Lane.show_secondaryLift (x : Lane) (g : Signal) (r : ShowReason) (n : Nat) : (x.show g r n).secondaryLift = x.secondaryLift := rfl
@[simp] theorem Lane.show_liftInOperation (x : Lane) (g : Signal) (r : ShowReason) (n : Nat) : (x.show g r n).liftInOperation = x.liftInOperation := rfl
@[simp] theorem Lane.show_servedLift (x : Lane) (g : Signal) (r : ShowReason) (n : Nat) : (x.show g r n).servedLift = x.servedLift := rfl
@[simp] theorem Lane.show_dayOpen (x : Lane) (g : Signal) (r : ShowReason) (n : Nat) : (x.show g r n).dayOpen = x.dayOpen := rfl
@[simp] theorem Lane.show_effective (x : Lane) (g : Signal) (r : ShowReason) (n : Nat) : (x.show g r n).effective = x.effective := rfl
@[simp] theorem Lane.show_admission (x : Lane) (g : Signal) (r : ShowReason) (n : Nat) : (x.show g r n).admission = x.admission := rfl
@[simp] theorem Lane.show_unlock (x : Lane) (g : Signal) (r : ShowReason) (n : Nat) : (x.show g r n).unlock = x.unlock := rfl
@[simp] theorem Lane.show_latchReleased (x : Lane) (g : Signal) (r : ShowReason) (n : Nat) : (x.show g r n).latchReleased = x.latchReleased := rfl
@[simp] theorem Lane.show_rotationLine (x : Lane) (g : Signal) (r : ShowReason) (n : Nat) : (x.show g r n).rotationLine = x.rotationLine := rfl
@[simp] theorem Lane.show_driveWindow (x : Lane) (g : Signal) (r : ShowReason) (n : Nat) : (x.show g r n).driveWindow = x.driveWindow := rfl
@[simp] theorem Lane.show_releaseWatch (x : Lane) (g : Signal) (r : ShowReason) (n : Nat) : (x.show g r n).releaseWatch = x.releaseWatch := rfl
@[simp] theorem Lane.show_counters (x : Lane) (g : Signal) (r : ShowReason) (n : Nat) : (x.show g r n).counters = x.counters := rfl
@[simp] theorem Lane.show_linkErrors (x : Lane) (g : Signal) (r : ShowReason) (n : Nat) : (x.show g r n).linkErrors = x.linkErrors := rfl
@[simp] theorem Lane.show_sending (x : Lane) (g : Signal) (r : ShowReason) (n : Nat) : (x.show g r n).sending = x.sending := rfl
@[simp] theorem Lane.show_validationInFlight (x : Lane) (g : Signal) (r : ShowReason) (n : Nat) : (x.show g r n).validationInFlight = x.validationInFlight := rfl
@[simp] theorem Lane.show_waitingTap (x : Lane) (g : Signal) (r : ShowReason) (n : Nat) : (x.show g r n).waitingTap = x.waitingTap := rfl
@[simp] theorem Lane.show_emptiedTaps (x : Lane) (g : Signal) (r : ShowReason) (n : Nat) : (x.show g r n).emptiedTaps = x.emptiedTaps := rfl
@[simp] theorem Lane.show_lastRequest (x : Lane) (g : Signal) (r : ShowReason) (n : Nat) : (x.show g r n).lastRequest = x.lastRequest := rfl
@[simp] theorem Lane.show_passageWindow (x : Lane) (g : Signal) (r : ShowReason) (n : Nat) : (x.show g r n).passageWindow = x.passageWindow := rfl
@[simp] theorem Lane.show_holdTimeout (x : Lane) (g : Signal) (r : ShowReason) (n : Nat) : (x.show g r n).holdTimeout = x.holdTimeout := rfl
@[simp] theorem Lane.show_rowOps (x : Lane) (g : Signal) (r : ShowReason) (n : Nat) : (x.show g r n).rowOps = x.rowOps := rfl
@[simp] theorem Lane.show_toLifts (x : Lane) (g : Signal) (r : ShowReason) (n : Nat) : (x.show g r n).toLifts = x.toLifts := rfl
@[simp] theorem Lane.show_records (x : Lane) (g : Signal) (r : ShowReason) (n : Nat) : (x.show g r n).records = x.records := rfl
@[simp] theorem Lane.show_raises (x : Lane) (g : Signal) (r : ShowReason) (n : Nat) : (x.show g r n).raises = x.raises := rfl
@[simp] theorem Lane.show_resetsPending (x : Lane) (g : Signal) (r : ShowReason) (n : Nat) : (x.show g r n).resetsPending = x.resetsPending := rfl

/-! ### `Lane.showState` -/

@[simp] theorem Lane.showState_presence (x : Lane)  : (x.showState).presence = x.presence := rfl
@[simp] theorem Lane.showState_keyPosition (x : Lane)  : (x.showState).keyPosition = x.keyPosition := rfl
@[simp] theorem Lane.showState_configuredMode (x : Lane)  : (x.showState).configuredMode = x.configuredMode := rfl
@[simp] theorem Lane.showState_actuationFail (x : Lane)  : (x.showState).actuationFail = x.actuationFail := rfl
@[simp] theorem Lane.showState_stuckOpen (x : Lane)  : (x.showState).stuckOpen = x.stuckOpen := rfl
@[simp] theorem Lane.showState_primaryLift (x : Lane)  : (x.showState).primaryLift = x.primaryLift := rfl
@[simp] theorem Lane.showState_secondaryLift (x : Lane)  : (x.showState).secondaryLift = x.secondaryLift := rfl
@[simp] theorem Lane.showState_liftInOperation (x : Lane)  : (x.showState).liftInOperation = x.liftInOperation := rfl
@[simp] theorem Lane.showState_servedLift (x : Lane)  : (x.showState).servedLift = x.servedLift := rfl
@[simp] theorem Lane.showState_dayOpen (x : Lane)  : (x.showState).dayOpen = x.dayOpen := rfl
@[simp] theorem Lane.showState_effective (x : Lane)  : (x.showState).effective = x.effective := rfl
@[simp] theorem Lane.showState_admission (x : Lane)  : (x.showState).admission = x.admission := rfl
@[simp] theorem Lane.showState_unlock (x : Lane)  : (x.showState).unlock = x.unlock := rfl
@[simp] theorem Lane.showState_latchReleased (x : Lane)  : (x.showState).latchReleased = x.latchReleased := rfl
@[simp] theorem Lane.showState_rotationLine (x : Lane)  : (x.showState).rotationLine = x.rotationLine := rfl
@[simp] theorem Lane.showState_driveWindow (x : Lane)  : (x.showState).driveWindow = x.driveWindow := rfl
@[simp] theorem Lane.showState_releaseWatch (x : Lane)  : (x.showState).releaseWatch = x.releaseWatch := rfl
@[simp] theorem Lane.showState_counters (x : Lane)  : (x.showState).counters = x.counters := rfl
@[simp] theorem Lane.showState_linkErrors (x : Lane)  : (x.showState).linkErrors = x.linkErrors := rfl
@[simp] theorem Lane.showState_sending (x : Lane)  : (x.showState).sending = x.sending := rfl
@[simp] theorem Lane.showState_validationInFlight (x : Lane)  : (x.showState).validationInFlight = x.validationInFlight := rfl
@[simp] theorem Lane.showState_waitingTap (x : Lane)  : (x.showState).waitingTap = x.waitingTap := rfl
@[simp] theorem Lane.showState_emptiedTaps (x : Lane)  : (x.showState).emptiedTaps = x.emptiedTaps := rfl
@[simp] theorem Lane.showState_lastRequest (x : Lane)  : (x.showState).lastRequest = x.lastRequest := rfl
@[simp] theorem Lane.showState_passageWindow (x : Lane)  : (x.showState).passageWindow = x.passageWindow := rfl
@[simp] theorem Lane.showState_holdTimeout (x : Lane)  : (x.showState).holdTimeout = x.holdTimeout := rfl
@[simp] theorem Lane.showState_rowOps (x : Lane)  : (x.showState).rowOps = x.rowOps := rfl
@[simp] theorem Lane.showState_toLifts (x : Lane)  : (x.showState).toLifts = x.toLifts := rfl
@[simp] theorem Lane.showState_records (x : Lane)  : (x.showState).records = x.records := rfl
@[simp] theorem Lane.showState_raises (x : Lane)  : (x.showState).raises = x.raises := rfl
@[simp] theorem Lane.showState_resetsPending (x : Lane)  : (x.showState).resetsPending = x.resetsPending := rfl

/-! ### `Lane.count` -/

@[simp] theorem Lane.count_presence (x : Lane) (f : LaneCounters → LaneCounters) : (x.count f).presence = x.presence := rfl
@[simp] theorem Lane.count_keyPosition (x : Lane) (f : LaneCounters → LaneCounters) : (x.count f).keyPosition = x.keyPosition := rfl
@[simp] theorem Lane.count_configuredMode (x : Lane) (f : LaneCounters → LaneCounters) : (x.count f).configuredMode = x.configuredMode := rfl
@[simp] theorem Lane.count_actuationFail (x : Lane) (f : LaneCounters → LaneCounters) : (x.count f).actuationFail = x.actuationFail := rfl
@[simp] theorem Lane.count_stuckOpen (x : Lane) (f : LaneCounters → LaneCounters) : (x.count f).stuckOpen = x.stuckOpen := rfl
@[simp] theorem Lane.count_primaryLift (x : Lane) (f : LaneCounters → LaneCounters) : (x.count f).primaryLift = x.primaryLift := rfl
@[simp] theorem Lane.count_secondaryLift (x : Lane) (f : LaneCounters → LaneCounters) : (x.count f).secondaryLift = x.secondaryLift := rfl
@[simp] theorem Lane.count_liftInOperation (x : Lane) (f : LaneCounters → LaneCounters) : (x.count f).liftInOperation = x.liftInOperation := rfl
@[simp] theorem Lane.count_servedLift (x : Lane) (f : LaneCounters → LaneCounters) : (x.count f).servedLift = x.servedLift := rfl
@[simp] theorem Lane.count_dayOpen (x : Lane) (f : LaneCounters → LaneCounters) : (x.count f).dayOpen = x.dayOpen := rfl
@[simp] theorem Lane.count_effective (x : Lane) (f : LaneCounters → LaneCounters) : (x.count f).effective = x.effective := rfl
@[simp] theorem Lane.count_admission (x : Lane) (f : LaneCounters → LaneCounters) : (x.count f).admission = x.admission := rfl
@[simp] theorem Lane.count_unlock (x : Lane) (f : LaneCounters → LaneCounters) : (x.count f).unlock = x.unlock := rfl
@[simp] theorem Lane.count_latchReleased (x : Lane) (f : LaneCounters → LaneCounters) : (x.count f).latchReleased = x.latchReleased := rfl
@[simp] theorem Lane.count_rotationLine (x : Lane) (f : LaneCounters → LaneCounters) : (x.count f).rotationLine = x.rotationLine := rfl
@[simp] theorem Lane.count_driveWindow (x : Lane) (f : LaneCounters → LaneCounters) : (x.count f).driveWindow = x.driveWindow := rfl
@[simp] theorem Lane.count_releaseWatch (x : Lane) (f : LaneCounters → LaneCounters) : (x.count f).releaseWatch = x.releaseWatch := rfl
@[simp] theorem Lane.count_linkErrors (x : Lane) (f : LaneCounters → LaneCounters) : (x.count f).linkErrors = x.linkErrors := rfl
@[simp] theorem Lane.count_showSlot (x : Lane) (f : LaneCounters → LaneCounters) : (x.count f).showSlot = x.showSlot := rfl
@[simp] theorem Lane.count_sending (x : Lane) (f : LaneCounters → LaneCounters) : (x.count f).sending = x.sending := rfl
@[simp] theorem Lane.count_lastShown (x : Lane) (f : LaneCounters → LaneCounters) : (x.count f).lastShown = x.lastShown := rfl
@[simp] theorem Lane.count_validationInFlight (x : Lane) (f : LaneCounters → LaneCounters) : (x.count f).validationInFlight = x.validationInFlight := rfl
@[simp] theorem Lane.count_waitingTap (x : Lane) (f : LaneCounters → LaneCounters) : (x.count f).waitingTap = x.waitingTap := rfl
@[simp] theorem Lane.count_emptiedTaps (x : Lane) (f : LaneCounters → LaneCounters) : (x.count f).emptiedTaps = x.emptiedTaps := rfl
@[simp] theorem Lane.count_lastRequest (x : Lane) (f : LaneCounters → LaneCounters) : (x.count f).lastRequest = x.lastRequest := rfl
@[simp] theorem Lane.count_passageWindow (x : Lane) (f : LaneCounters → LaneCounters) : (x.count f).passageWindow = x.passageWindow := rfl
@[simp] theorem Lane.count_holdTimeout (x : Lane) (f : LaneCounters → LaneCounters) : (x.count f).holdTimeout = x.holdTimeout := rfl
@[simp] theorem Lane.count_rowOps (x : Lane) (f : LaneCounters → LaneCounters) : (x.count f).rowOps = x.rowOps := rfl
@[simp] theorem Lane.count_toLifts (x : Lane) (f : LaneCounters → LaneCounters) : (x.count f).toLifts = x.toLifts := rfl
@[simp] theorem Lane.count_records (x : Lane) (f : LaneCounters → LaneCounters) : (x.count f).records = x.records := rfl
@[simp] theorem Lane.count_raises (x : Lane) (f : LaneCounters → LaneCounters) : (x.count f).raises = x.raises := rfl
@[simp] theorem Lane.count_resetsPending (x : Lane) (f : LaneCounters → LaneCounters) : (x.count f).resetsPending = x.resetsPending := rfl

/-! ### `Lane.handRecord` -/

@[simp] theorem Lane.handRecord_presence (x : Lane) (r : RecordBody) : (x.handRecord r).presence = x.presence := rfl
@[simp] theorem Lane.handRecord_keyPosition (x : Lane) (r : RecordBody) : (x.handRecord r).keyPosition = x.keyPosition := rfl
@[simp] theorem Lane.handRecord_configuredMode (x : Lane) (r : RecordBody) : (x.handRecord r).configuredMode = x.configuredMode := rfl
@[simp] theorem Lane.handRecord_actuationFail (x : Lane) (r : RecordBody) : (x.handRecord r).actuationFail = x.actuationFail := rfl
@[simp] theorem Lane.handRecord_stuckOpen (x : Lane) (r : RecordBody) : (x.handRecord r).stuckOpen = x.stuckOpen := rfl
@[simp] theorem Lane.handRecord_primaryLift (x : Lane) (r : RecordBody) : (x.handRecord r).primaryLift = x.primaryLift := rfl
@[simp] theorem Lane.handRecord_secondaryLift (x : Lane) (r : RecordBody) : (x.handRecord r).secondaryLift = x.secondaryLift := rfl
@[simp] theorem Lane.handRecord_liftInOperation (x : Lane) (r : RecordBody) : (x.handRecord r).liftInOperation = x.liftInOperation := rfl
@[simp] theorem Lane.handRecord_servedLift (x : Lane) (r : RecordBody) : (x.handRecord r).servedLift = x.servedLift := rfl
@[simp] theorem Lane.handRecord_dayOpen (x : Lane) (r : RecordBody) : (x.handRecord r).dayOpen = x.dayOpen := rfl
@[simp] theorem Lane.handRecord_effective (x : Lane) (r : RecordBody) : (x.handRecord r).effective = x.effective := rfl
@[simp] theorem Lane.handRecord_admission (x : Lane) (r : RecordBody) : (x.handRecord r).admission = x.admission := rfl
@[simp] theorem Lane.handRecord_unlock (x : Lane) (r : RecordBody) : (x.handRecord r).unlock = x.unlock := rfl
@[simp] theorem Lane.handRecord_latchReleased (x : Lane) (r : RecordBody) : (x.handRecord r).latchReleased = x.latchReleased := rfl
@[simp] theorem Lane.handRecord_rotationLine (x : Lane) (r : RecordBody) : (x.handRecord r).rotationLine = x.rotationLine := rfl
@[simp] theorem Lane.handRecord_driveWindow (x : Lane) (r : RecordBody) : (x.handRecord r).driveWindow = x.driveWindow := rfl
@[simp] theorem Lane.handRecord_releaseWatch (x : Lane) (r : RecordBody) : (x.handRecord r).releaseWatch = x.releaseWatch := rfl
@[simp] theorem Lane.handRecord_counters (x : Lane) (r : RecordBody) : (x.handRecord r).counters = x.counters := rfl
@[simp] theorem Lane.handRecord_linkErrors (x : Lane) (r : RecordBody) : (x.handRecord r).linkErrors = x.linkErrors := rfl
@[simp] theorem Lane.handRecord_showSlot (x : Lane) (r : RecordBody) : (x.handRecord r).showSlot = x.showSlot := rfl
@[simp] theorem Lane.handRecord_sending (x : Lane) (r : RecordBody) : (x.handRecord r).sending = x.sending := rfl
@[simp] theorem Lane.handRecord_lastShown (x : Lane) (r : RecordBody) : (x.handRecord r).lastShown = x.lastShown := rfl
@[simp] theorem Lane.handRecord_validationInFlight (x : Lane) (r : RecordBody) : (x.handRecord r).validationInFlight = x.validationInFlight := rfl
@[simp] theorem Lane.handRecord_waitingTap (x : Lane) (r : RecordBody) : (x.handRecord r).waitingTap = x.waitingTap := rfl
@[simp] theorem Lane.handRecord_emptiedTaps (x : Lane) (r : RecordBody) : (x.handRecord r).emptiedTaps = x.emptiedTaps := rfl
@[simp] theorem Lane.handRecord_lastRequest (x : Lane) (r : RecordBody) : (x.handRecord r).lastRequest = x.lastRequest := rfl
@[simp] theorem Lane.handRecord_passageWindow (x : Lane) (r : RecordBody) : (x.handRecord r).passageWindow = x.passageWindow := rfl
@[simp] theorem Lane.handRecord_holdTimeout (x : Lane) (r : RecordBody) : (x.handRecord r).holdTimeout = x.holdTimeout := rfl
@[simp] theorem Lane.handRecord_rowOps (x : Lane) (r : RecordBody) : (x.handRecord r).rowOps = x.rowOps := rfl
@[simp] theorem Lane.handRecord_toLifts (x : Lane) (r : RecordBody) : (x.handRecord r).toLifts = x.toLifts := rfl
@[simp] theorem Lane.handRecord_raises (x : Lane) (r : RecordBody) : (x.handRecord r).raises = x.raises := rfl
@[simp] theorem Lane.handRecord_resetsPending (x : Lane) (r : RecordBody) : (x.handRecord r).resetsPending = x.resetsPending := rfl

/-! ### `Lane.endAdmission` -/

@[simp] theorem Lane.endAdmission_presence (x : Lane) (a : Admission) : (x.endAdmission a).presence = x.presence := by
  simp [Lane.endAdmission]
@[simp] theorem Lane.endAdmission_keyPosition (x : Lane) (a : Admission) : (x.endAdmission a).keyPosition = x.keyPosition := by
  simp [Lane.endAdmission]
@[simp] theorem Lane.endAdmission_configuredMode (x : Lane) (a : Admission) : (x.endAdmission a).configuredMode = x.configuredMode := by
  simp [Lane.endAdmission]
@[simp] theorem Lane.endAdmission_actuationFail (x : Lane) (a : Admission) : (x.endAdmission a).actuationFail = x.actuationFail := by
  simp [Lane.endAdmission]
@[simp] theorem Lane.endAdmission_stuckOpen (x : Lane) (a : Admission) : (x.endAdmission a).stuckOpen = x.stuckOpen := by
  simp [Lane.endAdmission]
@[simp] theorem Lane.endAdmission_primaryLift (x : Lane) (a : Admission) : (x.endAdmission a).primaryLift = x.primaryLift := by
  simp [Lane.endAdmission]
@[simp] theorem Lane.endAdmission_secondaryLift (x : Lane) (a : Admission) : (x.endAdmission a).secondaryLift = x.secondaryLift := by
  simp [Lane.endAdmission]
@[simp] theorem Lane.endAdmission_liftInOperation (x : Lane) (a : Admission) : (x.endAdmission a).liftInOperation = x.liftInOperation := by
  simp [Lane.endAdmission]
@[simp] theorem Lane.endAdmission_servedLift (x : Lane) (a : Admission) : (x.endAdmission a).servedLift = x.servedLift := by
  simp [Lane.endAdmission]
@[simp] theorem Lane.endAdmission_dayOpen (x : Lane) (a : Admission) : (x.endAdmission a).dayOpen = x.dayOpen := by
  simp [Lane.endAdmission]
@[simp] theorem Lane.endAdmission_effective (x : Lane) (a : Admission) : (x.endAdmission a).effective = x.effective := by
  simp [Lane.endAdmission]
@[simp] theorem Lane.endAdmission_unlock (x : Lane) (a : Admission) : (x.endAdmission a).unlock = x.unlock := by
  simp [Lane.endAdmission]
@[simp] theorem Lane.endAdmission_latchReleased (x : Lane) (a : Admission) : (x.endAdmission a).latchReleased = x.latchReleased := by
  simp [Lane.endAdmission]
@[simp] theorem Lane.endAdmission_rotationLine (x : Lane) (a : Admission) : (x.endAdmission a).rotationLine = x.rotationLine := by
  simp [Lane.endAdmission]
@[simp] theorem Lane.endAdmission_driveWindow (x : Lane) (a : Admission) : (x.endAdmission a).driveWindow = x.driveWindow := by
  simp [Lane.endAdmission]
@[simp] theorem Lane.endAdmission_releaseWatch (x : Lane) (a : Admission) : (x.endAdmission a).releaseWatch = x.releaseWatch := by
  simp [Lane.endAdmission]
@[simp] theorem Lane.endAdmission_counters (x : Lane) (a : Admission) : (x.endAdmission a).counters = x.counters := by
  simp [Lane.endAdmission]
@[simp] theorem Lane.endAdmission_linkErrors (x : Lane) (a : Admission) : (x.endAdmission a).linkErrors = x.linkErrors := by
  simp [Lane.endAdmission]
@[simp] theorem Lane.endAdmission_showSlot (x : Lane) (a : Admission) : (x.endAdmission a).showSlot = x.showSlot := by
  simp [Lane.endAdmission]
@[simp] theorem Lane.endAdmission_sending (x : Lane) (a : Admission) : (x.endAdmission a).sending = x.sending := by
  simp [Lane.endAdmission]
@[simp] theorem Lane.endAdmission_lastShown (x : Lane) (a : Admission) : (x.endAdmission a).lastShown = x.lastShown := by
  simp [Lane.endAdmission]
@[simp] theorem Lane.endAdmission_validationInFlight (x : Lane) (a : Admission) : (x.endAdmission a).validationInFlight = x.validationInFlight := by
  simp [Lane.endAdmission]
@[simp] theorem Lane.endAdmission_waitingTap (x : Lane) (a : Admission) : (x.endAdmission a).waitingTap = x.waitingTap := by
  simp [Lane.endAdmission]
@[simp] theorem Lane.endAdmission_emptiedTaps (x : Lane) (a : Admission) : (x.endAdmission a).emptiedTaps = x.emptiedTaps := by
  simp [Lane.endAdmission]
@[simp] theorem Lane.endAdmission_lastRequest (x : Lane) (a : Admission) : (x.endAdmission a).lastRequest = x.lastRequest := by
  simp [Lane.endAdmission]
@[simp] theorem Lane.endAdmission_passageWindow (x : Lane) (a : Admission) : (x.endAdmission a).passageWindow = x.passageWindow := by
  simp [Lane.endAdmission]
@[simp] theorem Lane.endAdmission_holdTimeout (x : Lane) (a : Admission) : (x.endAdmission a).holdTimeout = x.holdTimeout := by
  simp [Lane.endAdmission]
@[simp] theorem Lane.endAdmission_toLifts (x : Lane) (a : Admission) : (x.endAdmission a).toLifts = x.toLifts := by
  simp [Lane.endAdmission]
@[simp] theorem Lane.endAdmission_records (x : Lane) (a : Admission) : (x.endAdmission a).records = x.records := by
  simp [Lane.endAdmission]
@[simp] theorem Lane.endAdmission_raises (x : Lane) (a : Admission) : (x.endAdmission a).raises = x.raises := by
  simp [Lane.endAdmission]
@[simp] theorem Lane.endAdmission_resetsPending (x : Lane) (a : Admission) : (x.endAdmission a).resetsPending = x.resetsPending := by
  simp [Lane.endAdmission]
@[simp] theorem Lane.endAdmission_admission (x : Lane) (a : Admission) : (x.endAdmission a).admission = none := by
  simp [Lane.endAdmission]

/-! ### `Lane.giveUp` -/

@[simp] theorem Lane.giveUp_presence (x : Lane) (env : LaneEnv) (a : Admission) : (x.giveUp env a).presence = x.presence := by
  simp only [Lane.giveUp]; split <;> simp
@[simp] theorem Lane.giveUp_keyPosition (x : Lane) (env : LaneEnv) (a : Admission) : (x.giveUp env a).keyPosition = x.keyPosition := by
  simp only [Lane.giveUp]; split <;> simp
@[simp] theorem Lane.giveUp_configuredMode (x : Lane) (env : LaneEnv) (a : Admission) : (x.giveUp env a).configuredMode = x.configuredMode := by
  simp only [Lane.giveUp]; split <;> simp
@[simp] theorem Lane.giveUp_actuationFail (x : Lane) (env : LaneEnv) (a : Admission) : (x.giveUp env a).actuationFail = x.actuationFail := by
  simp only [Lane.giveUp]; split <;> simp
@[simp] theorem Lane.giveUp_stuckOpen (x : Lane) (env : LaneEnv) (a : Admission) : (x.giveUp env a).stuckOpen = x.stuckOpen := by
  simp only [Lane.giveUp]; split <;> simp
@[simp] theorem Lane.giveUp_primaryLift (x : Lane) (env : LaneEnv) (a : Admission) : (x.giveUp env a).primaryLift = x.primaryLift := by
  simp only [Lane.giveUp]; split <;> simp
@[simp] theorem Lane.giveUp_secondaryLift (x : Lane) (env : LaneEnv) (a : Admission) : (x.giveUp env a).secondaryLift = x.secondaryLift := by
  simp only [Lane.giveUp]; split <;> simp
@[simp] theorem Lane.giveUp_liftInOperation (x : Lane) (env : LaneEnv) (a : Admission) : (x.giveUp env a).liftInOperation = x.liftInOperation := by
  simp only [Lane.giveUp]; split <;> simp
@[simp] theorem Lane.giveUp_servedLift (x : Lane) (env : LaneEnv) (a : Admission) : (x.giveUp env a).servedLift = x.servedLift := by
  simp only [Lane.giveUp]; split <;> simp
@[simp] theorem Lane.giveUp_dayOpen (x : Lane) (env : LaneEnv) (a : Admission) : (x.giveUp env a).dayOpen = x.dayOpen := by
  simp only [Lane.giveUp]; split <;> simp
@[simp] theorem Lane.giveUp_effective (x : Lane) (env : LaneEnv) (a : Admission) : (x.giveUp env a).effective = x.effective := by
  simp only [Lane.giveUp]; split <;> simp
@[simp] theorem Lane.giveUp_admission (x : Lane) (env : LaneEnv) (a : Admission) : (x.giveUp env a).admission = x.admission := by
  simp only [Lane.giveUp]; split <;> simp
@[simp] theorem Lane.giveUp_unlock (x : Lane) (env : LaneEnv) (a : Admission) : (x.giveUp env a).unlock = x.unlock := by
  simp only [Lane.giveUp]; split <;> simp
@[simp] theorem Lane.giveUp_latchReleased (x : Lane) (env : LaneEnv) (a : Admission) : (x.giveUp env a).latchReleased = x.latchReleased := by
  simp only [Lane.giveUp]; split <;> simp
@[simp] theorem Lane.giveUp_rotationLine (x : Lane) (env : LaneEnv) (a : Admission) : (x.giveUp env a).rotationLine = x.rotationLine := by
  simp only [Lane.giveUp]; split <;> simp
@[simp] theorem Lane.giveUp_driveWindow (x : Lane) (env : LaneEnv) (a : Admission) : (x.giveUp env a).driveWindow = x.driveWindow := by
  simp only [Lane.giveUp]; split <;> simp
@[simp] theorem Lane.giveUp_releaseWatch (x : Lane) (env : LaneEnv) (a : Admission) : (x.giveUp env a).releaseWatch = x.releaseWatch := by
  simp only [Lane.giveUp]; split <;> simp
@[simp] theorem Lane.giveUp_counters (x : Lane) (env : LaneEnv) (a : Admission) : (x.giveUp env a).counters = x.counters := by
  simp only [Lane.giveUp]; split <;> simp
@[simp] theorem Lane.giveUp_linkErrors (x : Lane) (env : LaneEnv) (a : Admission) : (x.giveUp env a).linkErrors = x.linkErrors := by
  simp only [Lane.giveUp]; split <;> simp
@[simp] theorem Lane.giveUp_showSlot (x : Lane) (env : LaneEnv) (a : Admission) : (x.giveUp env a).showSlot = x.showSlot := by
  simp only [Lane.giveUp]; split <;> simp
@[simp] theorem Lane.giveUp_sending (x : Lane) (env : LaneEnv) (a : Admission) : (x.giveUp env a).sending = x.sending := by
  simp only [Lane.giveUp]; split <;> simp
@[simp] theorem Lane.giveUp_lastShown (x : Lane) (env : LaneEnv) (a : Admission) : (x.giveUp env a).lastShown = x.lastShown := by
  simp only [Lane.giveUp]; split <;> simp
@[simp] theorem Lane.giveUp_validationInFlight (x : Lane) (env : LaneEnv) (a : Admission) : (x.giveUp env a).validationInFlight = x.validationInFlight := by
  simp only [Lane.giveUp]; split <;> simp
@[simp] theorem Lane.giveUp_waitingTap (x : Lane) (env : LaneEnv) (a : Admission) : (x.giveUp env a).waitingTap = x.waitingTap := by
  simp only [Lane.giveUp]; split <;> simp
@[simp] theorem Lane.giveUp_emptiedTaps (x : Lane) (env : LaneEnv) (a : Admission) : (x.giveUp env a).emptiedTaps = x.emptiedTaps := by
  simp only [Lane.giveUp]; split <;> simp
@[simp] theorem Lane.giveUp_lastRequest (x : Lane) (env : LaneEnv) (a : Admission) : (x.giveUp env a).lastRequest = x.lastRequest := by
  simp only [Lane.giveUp]; split <;> simp
@[simp] theorem Lane.giveUp_passageWindow (x : Lane) (env : LaneEnv) (a : Admission) : (x.giveUp env a).passageWindow = x.passageWindow := by
  simp only [Lane.giveUp]; split <;> simp
@[simp] theorem Lane.giveUp_holdTimeout (x : Lane) (env : LaneEnv) (a : Admission) : (x.giveUp env a).holdTimeout = x.holdTimeout := by
  simp only [Lane.giveUp]; split <;> simp
@[simp] theorem Lane.giveUp_rowOps (x : Lane) (env : LaneEnv) (a : Admission) : (x.giveUp env a).rowOps = x.rowOps := by
  simp only [Lane.giveUp]; split <;> simp
@[simp] theorem Lane.giveUp_records (x : Lane) (env : LaneEnv) (a : Admission) : (x.giveUp env a).records = x.records := by
  simp only [Lane.giveUp]; split <;> simp
@[simp] theorem Lane.giveUp_raises (x : Lane) (env : LaneEnv) (a : Admission) : (x.giveUp env a).raises = x.raises := by
  simp only [Lane.giveUp]; split <;> simp
@[simp] theorem Lane.giveUp_resetsPending (x : Lane) (env : LaneEnv) (a : Admission) : (x.giveUp env a).resetsPending = x.resetsPending := by
  simp only [Lane.giveUp]; split <;> simp

/-! ### `Lane.cancel` -/

@[simp] theorem Lane.cancel_presence (x : Lane) (env : LaneEnv) : (x.cancel env).presence = x.presence := by
  simp only [Lane.cancel]; split <;> simp
@[simp] theorem Lane.cancel_keyPosition (x : Lane) (env : LaneEnv) : (x.cancel env).keyPosition = x.keyPosition := by
  simp only [Lane.cancel]; split <;> simp
@[simp] theorem Lane.cancel_configuredMode (x : Lane) (env : LaneEnv) : (x.cancel env).configuredMode = x.configuredMode := by
  simp only [Lane.cancel]; split <;> simp
@[simp] theorem Lane.cancel_actuationFail (x : Lane) (env : LaneEnv) : (x.cancel env).actuationFail = x.actuationFail := by
  simp only [Lane.cancel]; split <;> simp
@[simp] theorem Lane.cancel_stuckOpen (x : Lane) (env : LaneEnv) : (x.cancel env).stuckOpen = x.stuckOpen := by
  simp only [Lane.cancel]; split <;> simp
@[simp] theorem Lane.cancel_primaryLift (x : Lane) (env : LaneEnv) : (x.cancel env).primaryLift = x.primaryLift := by
  simp only [Lane.cancel]; split <;> simp
@[simp] theorem Lane.cancel_secondaryLift (x : Lane) (env : LaneEnv) : (x.cancel env).secondaryLift = x.secondaryLift := by
  simp only [Lane.cancel]; split <;> simp
@[simp] theorem Lane.cancel_liftInOperation (x : Lane) (env : LaneEnv) : (x.cancel env).liftInOperation = x.liftInOperation := by
  simp only [Lane.cancel]; split <;> simp
@[simp] theorem Lane.cancel_servedLift (x : Lane) (env : LaneEnv) : (x.cancel env).servedLift = x.servedLift := by
  simp only [Lane.cancel]; split <;> simp
@[simp] theorem Lane.cancel_dayOpen (x : Lane) (env : LaneEnv) : (x.cancel env).dayOpen = x.dayOpen := by
  simp only [Lane.cancel]; split <;> simp
@[simp] theorem Lane.cancel_effective (x : Lane) (env : LaneEnv) : (x.cancel env).effective = x.effective := by
  simp only [Lane.cancel]; split <;> simp
@[simp] theorem Lane.cancel_unlock (x : Lane) (env : LaneEnv) : (x.cancel env).unlock = x.unlock := by
  simp only [Lane.cancel]; split <;> simp
@[simp] theorem Lane.cancel_latchReleased (x : Lane) (env : LaneEnv) : (x.cancel env).latchReleased = x.latchReleased := by
  simp only [Lane.cancel]; split <;> simp
@[simp] theorem Lane.cancel_rotationLine (x : Lane) (env : LaneEnv) : (x.cancel env).rotationLine = x.rotationLine := by
  simp only [Lane.cancel]; split <;> simp
@[simp] theorem Lane.cancel_driveWindow (x : Lane) (env : LaneEnv) : (x.cancel env).driveWindow = x.driveWindow := by
  simp only [Lane.cancel]; split <;> simp
@[simp] theorem Lane.cancel_releaseWatch (x : Lane) (env : LaneEnv) : (x.cancel env).releaseWatch = x.releaseWatch := by
  simp only [Lane.cancel]; split <;> simp
@[simp] theorem Lane.cancel_counters (x : Lane) (env : LaneEnv) : (x.cancel env).counters = x.counters := by
  simp only [Lane.cancel]; split <;> simp
@[simp] theorem Lane.cancel_linkErrors (x : Lane) (env : LaneEnv) : (x.cancel env).linkErrors = x.linkErrors := by
  simp only [Lane.cancel]; split <;> simp
@[simp] theorem Lane.cancel_showSlot (x : Lane) (env : LaneEnv) : (x.cancel env).showSlot = x.showSlot := by
  simp only [Lane.cancel]; split <;> simp
@[simp] theorem Lane.cancel_sending (x : Lane) (env : LaneEnv) : (x.cancel env).sending = x.sending := by
  simp only [Lane.cancel]; split <;> simp
@[simp] theorem Lane.cancel_lastShown (x : Lane) (env : LaneEnv) : (x.cancel env).lastShown = x.lastShown := by
  simp only [Lane.cancel]; split <;> simp
@[simp] theorem Lane.cancel_validationInFlight (x : Lane) (env : LaneEnv) : (x.cancel env).validationInFlight = x.validationInFlight := by
  simp only [Lane.cancel]; split <;> simp
@[simp] theorem Lane.cancel_waitingTap (x : Lane) (env : LaneEnv) : (x.cancel env).waitingTap = x.waitingTap := by
  simp only [Lane.cancel]; split <;> simp
@[simp] theorem Lane.cancel_emptiedTaps (x : Lane) (env : LaneEnv) : (x.cancel env).emptiedTaps = x.emptiedTaps := by
  simp only [Lane.cancel]; split <;> simp
@[simp] theorem Lane.cancel_lastRequest (x : Lane) (env : LaneEnv) : (x.cancel env).lastRequest = x.lastRequest := by
  simp only [Lane.cancel]; split <;> simp
@[simp] theorem Lane.cancel_passageWindow (x : Lane) (env : LaneEnv) : (x.cancel env).passageWindow = x.passageWindow := by
  simp only [Lane.cancel]; split <;> simp
@[simp] theorem Lane.cancel_holdTimeout (x : Lane) (env : LaneEnv) : (x.cancel env).holdTimeout = x.holdTimeout := by
  simp only [Lane.cancel]; split <;> simp
@[simp] theorem Lane.cancel_records (x : Lane) (env : LaneEnv) : (x.cancel env).records = x.records := by
  simp only [Lane.cancel]; split <;> simp
@[simp] theorem Lane.cancel_raises (x : Lane) (env : LaneEnv) : (x.cancel env).raises = x.raises := by
  simp only [Lane.cancel]; split <;> simp
@[simp] theorem Lane.cancel_resetsPending (x : Lane) (env : LaneEnv) : (x.cancel env).resetsPending = x.resetsPending := by
  simp only [Lane.cancel]; split <;> simp
@[simp] theorem Lane.cancel_admission (x : Lane) (env : LaneEnv) : (x.cancel env).admission = none := by
  simp only [Lane.cancel]; split
  · assumption
  · simp

/-! ### `Lane.rederive` -/

@[simp] theorem Lane.rederive_presence (x : Lane) (env : LaneEnv) : (x.rederive env).presence = x.presence := by
  simp only [Lane.rederive]; split
  · rfl
  · split <;> simp
@[simp] theorem Lane.rederive_keyPosition (x : Lane) (env : LaneEnv) : (x.rederive env).keyPosition = x.keyPosition := by
  simp only [Lane.rederive]; split
  · rfl
  · split <;> simp
@[simp] theorem Lane.rederive_configuredMode (x : Lane) (env : LaneEnv) : (x.rederive env).configuredMode = x.configuredMode := by
  simp only [Lane.rederive]; split
  · rfl
  · split <;> simp
@[simp] theorem Lane.rederive_actuationFail (x : Lane) (env : LaneEnv) : (x.rederive env).actuationFail = x.actuationFail := by
  simp only [Lane.rederive]; split
  · rfl
  · split <;> simp
@[simp] theorem Lane.rederive_stuckOpen (x : Lane) (env : LaneEnv) : (x.rederive env).stuckOpen = x.stuckOpen := by
  simp only [Lane.rederive]; split
  · rfl
  · split <;> simp
@[simp] theorem Lane.rederive_primaryLift (x : Lane) (env : LaneEnv) : (x.rederive env).primaryLift = x.primaryLift := by
  simp only [Lane.rederive]; split
  · rfl
  · split <;> simp
@[simp] theorem Lane.rederive_secondaryLift (x : Lane) (env : LaneEnv) : (x.rederive env).secondaryLift = x.secondaryLift := by
  simp only [Lane.rederive]; split
  · rfl
  · split <;> simp
@[simp] theorem Lane.rederive_liftInOperation (x : Lane) (env : LaneEnv) : (x.rederive env).liftInOperation = x.liftInOperation := by
  simp only [Lane.rederive]; split
  · rfl
  · split <;> simp
@[simp] theorem Lane.rederive_servedLift (x : Lane) (env : LaneEnv) : (x.rederive env).servedLift = x.servedLift := by
  simp only [Lane.rederive]; split
  · rfl
  · split <;> simp
@[simp] theorem Lane.rederive_dayOpen (x : Lane) (env : LaneEnv) : (x.rederive env).dayOpen = x.dayOpen := by
  simp only [Lane.rederive]; split
  · rfl
  · split <;> simp
@[simp] theorem Lane.rederive_unlock (x : Lane) (env : LaneEnv) : (x.rederive env).unlock = x.unlock := by
  simp only [Lane.rederive]; split
  · rfl
  · split <;> simp
@[simp] theorem Lane.rederive_latchReleased (x : Lane) (env : LaneEnv) : (x.rederive env).latchReleased = x.latchReleased := by
  simp only [Lane.rederive]; split
  · rfl
  · split <;> simp
@[simp] theorem Lane.rederive_rotationLine (x : Lane) (env : LaneEnv) : (x.rederive env).rotationLine = x.rotationLine := by
  simp only [Lane.rederive]; split
  · rfl
  · split <;> simp
@[simp] theorem Lane.rederive_driveWindow (x : Lane) (env : LaneEnv) : (x.rederive env).driveWindow = x.driveWindow := by
  simp only [Lane.rederive]; split
  · rfl
  · split <;> simp
@[simp] theorem Lane.rederive_releaseWatch (x : Lane) (env : LaneEnv) : (x.rederive env).releaseWatch = x.releaseWatch := by
  simp only [Lane.rederive]; split
  · rfl
  · split <;> simp
@[simp] theorem Lane.rederive_counters (x : Lane) (env : LaneEnv) : (x.rederive env).counters = x.counters := by
  simp only [Lane.rederive]; split
  · rfl
  · split <;> simp
@[simp] theorem Lane.rederive_linkErrors (x : Lane) (env : LaneEnv) : (x.rederive env).linkErrors = x.linkErrors := by
  simp only [Lane.rederive]; split
  · rfl
  · split <;> simp
@[simp] theorem Lane.rederive_sending (x : Lane) (env : LaneEnv) : (x.rederive env).sending = x.sending := by
  simp only [Lane.rederive]; split
  · rfl
  · split <;> simp
@[simp] theorem Lane.rederive_validationInFlight (x : Lane) (env : LaneEnv) : (x.rederive env).validationInFlight = x.validationInFlight := by
  simp only [Lane.rederive]; split
  · rfl
  · split <;> simp
@[simp] theorem Lane.rederive_waitingTap (x : Lane) (env : LaneEnv) : (x.rederive env).waitingTap = x.waitingTap := by
  simp only [Lane.rederive]; split
  · rfl
  · split <;> simp
@[simp] theorem Lane.rederive_emptiedTaps (x : Lane) (env : LaneEnv) : (x.rederive env).emptiedTaps = x.emptiedTaps := by
  simp only [Lane.rederive]; split
  · rfl
  · split <;> simp
@[simp] theorem Lane.rederive_lastRequest (x : Lane) (env : LaneEnv) : (x.rederive env).lastRequest = x.lastRequest := by
  simp only [Lane.rederive]; split
  · rfl
  · split <;> simp
@[simp] theorem Lane.rederive_passageWindow (x : Lane) (env : LaneEnv) : (x.rederive env).passageWindow = x.passageWindow := by
  simp only [Lane.rederive]; split
  · rfl
  · split <;> simp
@[simp] theorem Lane.rederive_holdTimeout (x : Lane) (env : LaneEnv) : (x.rederive env).holdTimeout = x.holdTimeout := by
  simp only [Lane.rederive]; split
  · rfl
  · split <;> simp
@[simp] theorem Lane.rederive_records (x : Lane) (env : LaneEnv) : (x.rederive env).records = x.records := by
  simp only [Lane.rederive]; split
  · rfl
  · split <;> simp
@[simp] theorem Lane.rederive_raises (x : Lane) (env : LaneEnv) : (x.rederive env).raises = x.raises := by
  simp only [Lane.rederive]; split
  · rfl
  · split <;> simp
@[simp] theorem Lane.rederive_resetsPending (x : Lane) (env : LaneEnv) : (x.rederive env).resetsPending = x.resetsPending := by
  simp only [Lane.rederive]; split
  · rfl
  · split <;> simp
/-- A re-derivation always leaves the effective state derived (R54). -/
@[simp] theorem Lane.rederive_effective (x : Lane) (env : LaneEnv) : (x.rederive env).effective = x.derived := by
  simp only [Lane.rederive]; split
  · next h => exact h.symm
  · split <;> simp

/-! ### `Lane.requestPlace` -/

@[simp] theorem Lane.requestPlace_presence (x : Lane) (env : LaneEnv) (a : Admission) : (x.requestPlace env a).presence = x.presence := by
  simp [Lane.requestPlace]
@[simp] theorem Lane.requestPlace_keyPosition (x : Lane) (env : LaneEnv) (a : Admission) : (x.requestPlace env a).keyPosition = x.keyPosition := by
  simp [Lane.requestPlace]
@[simp] theorem Lane.requestPlace_configuredMode (x : Lane) (env : LaneEnv) (a : Admission) : (x.requestPlace env a).configuredMode = x.configuredMode := by
  simp [Lane.requestPlace]
@[simp] theorem Lane.requestPlace_actuationFail (x : Lane) (env : LaneEnv) (a : Admission) : (x.requestPlace env a).actuationFail = x.actuationFail := by
  simp [Lane.requestPlace]
@[simp] theorem Lane.requestPlace_stuckOpen (x : Lane) (env : LaneEnv) (a : Admission) : (x.requestPlace env a).stuckOpen = x.stuckOpen := by
  simp [Lane.requestPlace]
@[simp] theorem Lane.requestPlace_primaryLift (x : Lane) (env : LaneEnv) (a : Admission) : (x.requestPlace env a).primaryLift = x.primaryLift := by
  simp [Lane.requestPlace]
@[simp] theorem Lane.requestPlace_secondaryLift (x : Lane) (env : LaneEnv) (a : Admission) : (x.requestPlace env a).secondaryLift = x.secondaryLift := by
  simp [Lane.requestPlace]
@[simp] theorem Lane.requestPlace_liftInOperation (x : Lane) (env : LaneEnv) (a : Admission) : (x.requestPlace env a).liftInOperation = x.liftInOperation := by
  simp [Lane.requestPlace]
@[simp] theorem Lane.requestPlace_servedLift (x : Lane) (env : LaneEnv) (a : Admission) : (x.requestPlace env a).servedLift = x.servedLift := by
  simp [Lane.requestPlace]
@[simp] theorem Lane.requestPlace_dayOpen (x : Lane) (env : LaneEnv) (a : Admission) : (x.requestPlace env a).dayOpen = x.dayOpen := by
  simp [Lane.requestPlace]
@[simp] theorem Lane.requestPlace_effective (x : Lane) (env : LaneEnv) (a : Admission) : (x.requestPlace env a).effective = x.effective := by
  simp [Lane.requestPlace]
@[simp] theorem Lane.requestPlace_unlock (x : Lane) (env : LaneEnv) (a : Admission) : (x.requestPlace env a).unlock = x.unlock := by
  simp [Lane.requestPlace]
@[simp] theorem Lane.requestPlace_latchReleased (x : Lane) (env : LaneEnv) (a : Admission) : (x.requestPlace env a).latchReleased = x.latchReleased := by
  simp [Lane.requestPlace]
@[simp] theorem Lane.requestPlace_rotationLine (x : Lane) (env : LaneEnv) (a : Admission) : (x.requestPlace env a).rotationLine = x.rotationLine := by
  simp [Lane.requestPlace]
@[simp] theorem Lane.requestPlace_driveWindow (x : Lane) (env : LaneEnv) (a : Admission) : (x.requestPlace env a).driveWindow = x.driveWindow := by
  simp [Lane.requestPlace]
@[simp] theorem Lane.requestPlace_releaseWatch (x : Lane) (env : LaneEnv) (a : Admission) : (x.requestPlace env a).releaseWatch = x.releaseWatch := by
  simp [Lane.requestPlace]
@[simp] theorem Lane.requestPlace_counters (x : Lane) (env : LaneEnv) (a : Admission) : (x.requestPlace env a).counters = x.counters := by
  simp [Lane.requestPlace]
@[simp] theorem Lane.requestPlace_linkErrors (x : Lane) (env : LaneEnv) (a : Admission) : (x.requestPlace env a).linkErrors = x.linkErrors := by
  simp [Lane.requestPlace]
@[simp] theorem Lane.requestPlace_showSlot (x : Lane) (env : LaneEnv) (a : Admission) : (x.requestPlace env a).showSlot = x.showSlot := by
  simp [Lane.requestPlace]
@[simp] theorem Lane.requestPlace_sending (x : Lane) (env : LaneEnv) (a : Admission) : (x.requestPlace env a).sending = x.sending := by
  simp [Lane.requestPlace]
@[simp] theorem Lane.requestPlace_lastShown (x : Lane) (env : LaneEnv) (a : Admission) : (x.requestPlace env a).lastShown = x.lastShown := by
  simp [Lane.requestPlace]
@[simp] theorem Lane.requestPlace_validationInFlight (x : Lane) (env : LaneEnv) (a : Admission) : (x.requestPlace env a).validationInFlight = x.validationInFlight := by
  simp [Lane.requestPlace]
@[simp] theorem Lane.requestPlace_waitingTap (x : Lane) (env : LaneEnv) (a : Admission) : (x.requestPlace env a).waitingTap = x.waitingTap := by
  simp [Lane.requestPlace]
@[simp] theorem Lane.requestPlace_emptiedTaps (x : Lane) (env : LaneEnv) (a : Admission) : (x.requestPlace env a).emptiedTaps = x.emptiedTaps := by
  simp [Lane.requestPlace]
@[simp] theorem Lane.requestPlace_passageWindow (x : Lane) (env : LaneEnv) (a : Admission) : (x.requestPlace env a).passageWindow = x.passageWindow := by
  simp [Lane.requestPlace]
@[simp] theorem Lane.requestPlace_holdTimeout (x : Lane) (env : LaneEnv) (a : Admission) : (x.requestPlace env a).holdTimeout = x.holdTimeout := by
  simp [Lane.requestPlace]
@[simp] theorem Lane.requestPlace_rowOps (x : Lane) (env : LaneEnv) (a : Admission) : (x.requestPlace env a).rowOps = x.rowOps := by
  simp [Lane.requestPlace]
@[simp] theorem Lane.requestPlace_records (x : Lane) (env : LaneEnv) (a : Admission) : (x.requestPlace env a).records = x.records := by
  simp [Lane.requestPlace]
@[simp] theorem Lane.requestPlace_raises (x : Lane) (env : LaneEnv) (a : Admission) : (x.requestPlace env a).raises = x.raises := by
  simp [Lane.requestPlace]
@[simp] theorem Lane.requestPlace_resetsPending (x : Lane) (env : LaneEnv) (a : Admission) : (x.requestPlace env a).resetsPending = x.resetsPending := by
  simp [Lane.requestPlace]

/-! ### `Lane.showDenial` -/

@[simp] theorem Lane.showDenial_presence (x : Lane) (r : DenyReason) : (x.showDenial r).presence = x.presence := by
  simp only [Lane.showDenial]; split <;> simp
@[simp] theorem Lane.showDenial_keyPosition (x : Lane) (r : DenyReason) : (x.showDenial r).keyPosition = x.keyPosition := by
  simp only [Lane.showDenial]; split <;> simp
@[simp] theorem Lane.showDenial_configuredMode (x : Lane) (r : DenyReason) : (x.showDenial r).configuredMode = x.configuredMode := by
  simp only [Lane.showDenial]; split <;> simp
@[simp] theorem Lane.showDenial_actuationFail (x : Lane) (r : DenyReason) : (x.showDenial r).actuationFail = x.actuationFail := by
  simp only [Lane.showDenial]; split <;> simp
@[simp] theorem Lane.showDenial_stuckOpen (x : Lane) (r : DenyReason) : (x.showDenial r).stuckOpen = x.stuckOpen := by
  simp only [Lane.showDenial]; split <;> simp
@[simp] theorem Lane.showDenial_primaryLift (x : Lane) (r : DenyReason) : (x.showDenial r).primaryLift = x.primaryLift := by
  simp only [Lane.showDenial]; split <;> simp
@[simp] theorem Lane.showDenial_secondaryLift (x : Lane) (r : DenyReason) : (x.showDenial r).secondaryLift = x.secondaryLift := by
  simp only [Lane.showDenial]; split <;> simp
@[simp] theorem Lane.showDenial_liftInOperation (x : Lane) (r : DenyReason) : (x.showDenial r).liftInOperation = x.liftInOperation := by
  simp only [Lane.showDenial]; split <;> simp
@[simp] theorem Lane.showDenial_servedLift (x : Lane) (r : DenyReason) : (x.showDenial r).servedLift = x.servedLift := by
  simp only [Lane.showDenial]; split <;> simp
@[simp] theorem Lane.showDenial_dayOpen (x : Lane) (r : DenyReason) : (x.showDenial r).dayOpen = x.dayOpen := by
  simp only [Lane.showDenial]; split <;> simp
@[simp] theorem Lane.showDenial_effective (x : Lane) (r : DenyReason) : (x.showDenial r).effective = x.effective := by
  simp only [Lane.showDenial]; split <;> simp
@[simp] theorem Lane.showDenial_admission (x : Lane) (r : DenyReason) : (x.showDenial r).admission = x.admission := by
  simp only [Lane.showDenial]; split <;> simp
@[simp] theorem Lane.showDenial_unlock (x : Lane) (r : DenyReason) : (x.showDenial r).unlock = x.unlock := by
  simp only [Lane.showDenial]; split <;> simp
@[simp] theorem Lane.showDenial_latchReleased (x : Lane) (r : DenyReason) : (x.showDenial r).latchReleased = x.latchReleased := by
  simp only [Lane.showDenial]; split <;> simp
@[simp] theorem Lane.showDenial_rotationLine (x : Lane) (r : DenyReason) : (x.showDenial r).rotationLine = x.rotationLine := by
  simp only [Lane.showDenial]; split <;> simp
@[simp] theorem Lane.showDenial_driveWindow (x : Lane) (r : DenyReason) : (x.showDenial r).driveWindow = x.driveWindow := by
  simp only [Lane.showDenial]; split <;> simp
@[simp] theorem Lane.showDenial_releaseWatch (x : Lane) (r : DenyReason) : (x.showDenial r).releaseWatch = x.releaseWatch := by
  simp only [Lane.showDenial]; split <;> simp
@[simp] theorem Lane.showDenial_counters (x : Lane) (r : DenyReason) : (x.showDenial r).counters = x.counters := by
  simp only [Lane.showDenial]; split <;> simp
@[simp] theorem Lane.showDenial_linkErrors (x : Lane) (r : DenyReason) : (x.showDenial r).linkErrors = x.linkErrors := by
  simp only [Lane.showDenial]; split <;> simp
@[simp] theorem Lane.showDenial_sending (x : Lane) (r : DenyReason) : (x.showDenial r).sending = x.sending := by
  simp only [Lane.showDenial]; split <;> simp
@[simp] theorem Lane.showDenial_validationInFlight (x : Lane) (r : DenyReason) : (x.showDenial r).validationInFlight = x.validationInFlight := by
  simp only [Lane.showDenial]; split <;> simp
@[simp] theorem Lane.showDenial_waitingTap (x : Lane) (r : DenyReason) : (x.showDenial r).waitingTap = x.waitingTap := by
  simp only [Lane.showDenial]; split <;> simp
@[simp] theorem Lane.showDenial_emptiedTaps (x : Lane) (r : DenyReason) : (x.showDenial r).emptiedTaps = x.emptiedTaps := by
  simp only [Lane.showDenial]; split <;> simp
@[simp] theorem Lane.showDenial_lastRequest (x : Lane) (r : DenyReason) : (x.showDenial r).lastRequest = x.lastRequest := by
  simp only [Lane.showDenial]; split <;> simp
@[simp] theorem Lane.showDenial_passageWindow (x : Lane) (r : DenyReason) : (x.showDenial r).passageWindow = x.passageWindow := by
  simp only [Lane.showDenial]; split <;> simp
@[simp] theorem Lane.showDenial_holdTimeout (x : Lane) (r : DenyReason) : (x.showDenial r).holdTimeout = x.holdTimeout := by
  simp only [Lane.showDenial]; split <;> simp
@[simp] theorem Lane.showDenial_rowOps (x : Lane) (r : DenyReason) : (x.showDenial r).rowOps = x.rowOps := by
  simp only [Lane.showDenial]; split <;> simp
@[simp] theorem Lane.showDenial_toLifts (x : Lane) (r : DenyReason) : (x.showDenial r).toLifts = x.toLifts := by
  simp only [Lane.showDenial]; split <;> simp
@[simp] theorem Lane.showDenial_records (x : Lane) (r : DenyReason) : (x.showDenial r).records = x.records := by
  simp only [Lane.showDenial]; split <;> simp
@[simp] theorem Lane.showDenial_raises (x : Lane) (r : DenyReason) : (x.showDenial r).raises = x.raises := by
  simp only [Lane.showDenial]; split <;> simp
@[simp] theorem Lane.showDenial_resetsPending (x : Lane) (r : DenyReason) : (x.showDenial r).resetsPending = x.resetsPending := by
  simp only [Lane.showDenial]; split <;> simp

/-! ### `Lane.deny` -/

@[simp] theorem Lane.deny_presence (x : Lane) (r : DenyReason) : (x.deny r).presence = x.presence := by
  simp [Lane.deny]
@[simp] theorem Lane.deny_keyPosition (x : Lane) (r : DenyReason) : (x.deny r).keyPosition = x.keyPosition := by
  simp [Lane.deny]
@[simp] theorem Lane.deny_configuredMode (x : Lane) (r : DenyReason) : (x.deny r).configuredMode = x.configuredMode := by
  simp [Lane.deny]
@[simp] theorem Lane.deny_actuationFail (x : Lane) (r : DenyReason) : (x.deny r).actuationFail = x.actuationFail := by
  simp [Lane.deny]
@[simp] theorem Lane.deny_stuckOpen (x : Lane) (r : DenyReason) : (x.deny r).stuckOpen = x.stuckOpen := by
  simp [Lane.deny]
@[simp] theorem Lane.deny_primaryLift (x : Lane) (r : DenyReason) : (x.deny r).primaryLift = x.primaryLift := by
  simp [Lane.deny]
@[simp] theorem Lane.deny_secondaryLift (x : Lane) (r : DenyReason) : (x.deny r).secondaryLift = x.secondaryLift := by
  simp [Lane.deny]
@[simp] theorem Lane.deny_liftInOperation (x : Lane) (r : DenyReason) : (x.deny r).liftInOperation = x.liftInOperation := by
  simp [Lane.deny]
@[simp] theorem Lane.deny_servedLift (x : Lane) (r : DenyReason) : (x.deny r).servedLift = x.servedLift := by
  simp [Lane.deny]
@[simp] theorem Lane.deny_dayOpen (x : Lane) (r : DenyReason) : (x.deny r).dayOpen = x.dayOpen := by
  simp [Lane.deny]
@[simp] theorem Lane.deny_effective (x : Lane) (r : DenyReason) : (x.deny r).effective = x.effective := by
  simp [Lane.deny]
@[simp] theorem Lane.deny_admission (x : Lane) (r : DenyReason) : (x.deny r).admission = x.admission := by
  simp [Lane.deny]
@[simp] theorem Lane.deny_unlock (x : Lane) (r : DenyReason) : (x.deny r).unlock = x.unlock := by
  simp [Lane.deny]
@[simp] theorem Lane.deny_latchReleased (x : Lane) (r : DenyReason) : (x.deny r).latchReleased = x.latchReleased := by
  simp [Lane.deny]
@[simp] theorem Lane.deny_rotationLine (x : Lane) (r : DenyReason) : (x.deny r).rotationLine = x.rotationLine := by
  simp [Lane.deny]
@[simp] theorem Lane.deny_driveWindow (x : Lane) (r : DenyReason) : (x.deny r).driveWindow = x.driveWindow := by
  simp [Lane.deny]
@[simp] theorem Lane.deny_releaseWatch (x : Lane) (r : DenyReason) : (x.deny r).releaseWatch = x.releaseWatch := by
  simp [Lane.deny]
@[simp] theorem Lane.deny_linkErrors (x : Lane) (r : DenyReason) : (x.deny r).linkErrors = x.linkErrors := by
  simp [Lane.deny]
@[simp] theorem Lane.deny_sending (x : Lane) (r : DenyReason) : (x.deny r).sending = x.sending := by
  simp [Lane.deny]
@[simp] theorem Lane.deny_validationInFlight (x : Lane) (r : DenyReason) : (x.deny r).validationInFlight = x.validationInFlight := by
  simp [Lane.deny]
@[simp] theorem Lane.deny_waitingTap (x : Lane) (r : DenyReason) : (x.deny r).waitingTap = x.waitingTap := by
  simp [Lane.deny]
@[simp] theorem Lane.deny_emptiedTaps (x : Lane) (r : DenyReason) : (x.deny r).emptiedTaps = x.emptiedTaps := by
  simp [Lane.deny]
@[simp] theorem Lane.deny_lastRequest (x : Lane) (r : DenyReason) : (x.deny r).lastRequest = x.lastRequest := by
  simp [Lane.deny]
@[simp] theorem Lane.deny_passageWindow (x : Lane) (r : DenyReason) : (x.deny r).passageWindow = x.passageWindow := by
  simp [Lane.deny]
@[simp] theorem Lane.deny_holdTimeout (x : Lane) (r : DenyReason) : (x.deny r).holdTimeout = x.holdTimeout := by
  simp [Lane.deny]
@[simp] theorem Lane.deny_rowOps (x : Lane) (r : DenyReason) : (x.deny r).rowOps = x.rowOps := by
  simp [Lane.deny]
@[simp] theorem Lane.deny_toLifts (x : Lane) (r : DenyReason) : (x.deny r).toLifts = x.toLifts := by
  simp [Lane.deny]
@[simp] theorem Lane.deny_records (x : Lane) (r : DenyReason) : (x.deny r).records = x.records := by
  simp [Lane.deny]
@[simp] theorem Lane.deny_raises (x : Lane) (r : DenyReason) : (x.deny r).raises = x.raises := by
  simp [Lane.deny]
@[simp] theorem Lane.deny_resetsPending (x : Lane) (r : DenyReason) : (x.deny r).resetsPending = x.resetsPending := by
  simp [Lane.deny]

/-! ### `Lane.decisionTaken` -/

@[simp] theorem Lane.decisionTaken_presence (x : Lane)  : (x.decisionTaken).presence = x.presence := rfl
@[simp] theorem Lane.decisionTaken_keyPosition (x : Lane)  : (x.decisionTaken).keyPosition = x.keyPosition := rfl
@[simp] theorem Lane.decisionTaken_configuredMode (x : Lane)  : (x.decisionTaken).configuredMode = x.configuredMode := rfl
@[simp] theorem Lane.decisionTaken_actuationFail (x : Lane)  : (x.decisionTaken).actuationFail = x.actuationFail := rfl
@[simp] theorem Lane.decisionTaken_stuckOpen (x : Lane)  : (x.decisionTaken).stuckOpen = x.stuckOpen := rfl
@[simp] theorem Lane.decisionTaken_primaryLift (x : Lane)  : (x.decisionTaken).primaryLift = x.primaryLift := rfl
@[simp] theorem Lane.decisionTaken_secondaryLift (x : Lane)  : (x.decisionTaken).secondaryLift = x.secondaryLift := rfl
@[simp] theorem Lane.decisionTaken_liftInOperation (x : Lane)  : (x.decisionTaken).liftInOperation = x.liftInOperation := rfl
@[simp] theorem Lane.decisionTaken_servedLift (x : Lane)  : (x.decisionTaken).servedLift = x.servedLift := rfl
@[simp] theorem Lane.decisionTaken_dayOpen (x : Lane)  : (x.decisionTaken).dayOpen = x.dayOpen := rfl
@[simp] theorem Lane.decisionTaken_effective (x : Lane)  : (x.decisionTaken).effective = x.effective := rfl
@[simp] theorem Lane.decisionTaken_admission (x : Lane)  : (x.decisionTaken).admission = x.admission := rfl
@[simp] theorem Lane.decisionTaken_unlock (x : Lane)  : (x.decisionTaken).unlock = x.unlock := rfl
@[simp] theorem Lane.decisionTaken_latchReleased (x : Lane)  : (x.decisionTaken).latchReleased = x.latchReleased := rfl
@[simp] theorem Lane.decisionTaken_rotationLine (x : Lane)  : (x.decisionTaken).rotationLine = x.rotationLine := rfl
@[simp] theorem Lane.decisionTaken_driveWindow (x : Lane)  : (x.decisionTaken).driveWindow = x.driveWindow := rfl
@[simp] theorem Lane.decisionTaken_releaseWatch (x : Lane)  : (x.decisionTaken).releaseWatch = x.releaseWatch := rfl
@[simp] theorem Lane.decisionTaken_counters (x : Lane)  : (x.decisionTaken).counters = x.counters := rfl
@[simp] theorem Lane.decisionTaken_linkErrors (x : Lane)  : (x.decisionTaken).linkErrors = x.linkErrors := rfl
@[simp] theorem Lane.decisionTaken_showSlot (x : Lane)  : (x.decisionTaken).showSlot = x.showSlot := rfl
@[simp] theorem Lane.decisionTaken_sending (x : Lane)  : (x.decisionTaken).sending = x.sending := rfl
@[simp] theorem Lane.decisionTaken_lastShown (x : Lane)  : (x.decisionTaken).lastShown = x.lastShown := rfl
@[simp] theorem Lane.decisionTaken_lastRequest (x : Lane)  : (x.decisionTaken).lastRequest = x.lastRequest := rfl
@[simp] theorem Lane.decisionTaken_passageWindow (x : Lane)  : (x.decisionTaken).passageWindow = x.passageWindow := rfl
@[simp] theorem Lane.decisionTaken_holdTimeout (x : Lane)  : (x.decisionTaken).holdTimeout = x.holdTimeout := rfl
@[simp] theorem Lane.decisionTaken_rowOps (x : Lane)  : (x.decisionTaken).rowOps = x.rowOps := rfl
@[simp] theorem Lane.decisionTaken_toLifts (x : Lane)  : (x.decisionTaken).toLifts = x.toLifts := rfl
@[simp] theorem Lane.decisionTaken_records (x : Lane)  : (x.decisionTaken).records = x.records := rfl
@[simp] theorem Lane.decisionTaken_raises (x : Lane)  : (x.decisionTaken).raises = x.raises := rfl
@[simp] theorem Lane.decisionTaken_resetsPending (x : Lane)  : (x.decisionTaken).resetsPending = x.resetsPending := rfl

/-! ### `Lane.tellServed` -/

@[simp] theorem Lane.tellServed_presence (x : Lane) (env : LaneEnv) (m : LaneMessage) : (x.tellServed env m).presence = x.presence := by
  simp only [Lane.tellServed]; split <;> simp
@[simp] theorem Lane.tellServed_keyPosition (x : Lane) (env : LaneEnv) (m : LaneMessage) : (x.tellServed env m).keyPosition = x.keyPosition := by
  simp only [Lane.tellServed]; split <;> simp
@[simp] theorem Lane.tellServed_configuredMode (x : Lane) (env : LaneEnv) (m : LaneMessage) : (x.tellServed env m).configuredMode = x.configuredMode := by
  simp only [Lane.tellServed]; split <;> simp
@[simp] theorem Lane.tellServed_actuationFail (x : Lane) (env : LaneEnv) (m : LaneMessage) : (x.tellServed env m).actuationFail = x.actuationFail := by
  simp only [Lane.tellServed]; split <;> simp
@[simp] theorem Lane.tellServed_stuckOpen (x : Lane) (env : LaneEnv) (m : LaneMessage) : (x.tellServed env m).stuckOpen = x.stuckOpen := by
  simp only [Lane.tellServed]; split <;> simp
@[simp] theorem Lane.tellServed_primaryLift (x : Lane) (env : LaneEnv) (m : LaneMessage) : (x.tellServed env m).primaryLift = x.primaryLift := by
  simp only [Lane.tellServed]; split <;> simp
@[simp] theorem Lane.tellServed_secondaryLift (x : Lane) (env : LaneEnv) (m : LaneMessage) : (x.tellServed env m).secondaryLift = x.secondaryLift := by
  simp only [Lane.tellServed]; split <;> simp
@[simp] theorem Lane.tellServed_liftInOperation (x : Lane) (env : LaneEnv) (m : LaneMessage) : (x.tellServed env m).liftInOperation = x.liftInOperation := by
  simp only [Lane.tellServed]; split <;> simp
@[simp] theorem Lane.tellServed_servedLift (x : Lane) (env : LaneEnv) (m : LaneMessage) : (x.tellServed env m).servedLift = x.servedLift := by
  simp only [Lane.tellServed]; split <;> simp
@[simp] theorem Lane.tellServed_dayOpen (x : Lane) (env : LaneEnv) (m : LaneMessage) : (x.tellServed env m).dayOpen = x.dayOpen := by
  simp only [Lane.tellServed]; split <;> simp
@[simp] theorem Lane.tellServed_effective (x : Lane) (env : LaneEnv) (m : LaneMessage) : (x.tellServed env m).effective = x.effective := by
  simp only [Lane.tellServed]; split <;> simp
@[simp] theorem Lane.tellServed_admission (x : Lane) (env : LaneEnv) (m : LaneMessage) : (x.tellServed env m).admission = x.admission := by
  simp only [Lane.tellServed]; split <;> simp
@[simp] theorem Lane.tellServed_unlock (x : Lane) (env : LaneEnv) (m : LaneMessage) : (x.tellServed env m).unlock = x.unlock := by
  simp only [Lane.tellServed]; split <;> simp
@[simp] theorem Lane.tellServed_latchReleased (x : Lane) (env : LaneEnv) (m : LaneMessage) : (x.tellServed env m).latchReleased = x.latchReleased := by
  simp only [Lane.tellServed]; split <;> simp
@[simp] theorem Lane.tellServed_rotationLine (x : Lane) (env : LaneEnv) (m : LaneMessage) : (x.tellServed env m).rotationLine = x.rotationLine := by
  simp only [Lane.tellServed]; split <;> simp
@[simp] theorem Lane.tellServed_driveWindow (x : Lane) (env : LaneEnv) (m : LaneMessage) : (x.tellServed env m).driveWindow = x.driveWindow := by
  simp only [Lane.tellServed]; split <;> simp
@[simp] theorem Lane.tellServed_releaseWatch (x : Lane) (env : LaneEnv) (m : LaneMessage) : (x.tellServed env m).releaseWatch = x.releaseWatch := by
  simp only [Lane.tellServed]; split <;> simp
@[simp] theorem Lane.tellServed_counters (x : Lane) (env : LaneEnv) (m : LaneMessage) : (x.tellServed env m).counters = x.counters := by
  simp only [Lane.tellServed]; split <;> simp
@[simp] theorem Lane.tellServed_linkErrors (x : Lane) (env : LaneEnv) (m : LaneMessage) : (x.tellServed env m).linkErrors = x.linkErrors := by
  simp only [Lane.tellServed]; split <;> simp
@[simp] theorem Lane.tellServed_showSlot (x : Lane) (env : LaneEnv) (m : LaneMessage) : (x.tellServed env m).showSlot = x.showSlot := by
  simp only [Lane.tellServed]; split <;> simp
@[simp] theorem Lane.tellServed_sending (x : Lane) (env : LaneEnv) (m : LaneMessage) : (x.tellServed env m).sending = x.sending := by
  simp only [Lane.tellServed]; split <;> simp
@[simp] theorem Lane.tellServed_lastShown (x : Lane) (env : LaneEnv) (m : LaneMessage) : (x.tellServed env m).lastShown = x.lastShown := by
  simp only [Lane.tellServed]; split <;> simp
@[simp] theorem Lane.tellServed_validationInFlight (x : Lane) (env : LaneEnv) (m : LaneMessage) : (x.tellServed env m).validationInFlight = x.validationInFlight := by
  simp only [Lane.tellServed]; split <;> simp
@[simp] theorem Lane.tellServed_waitingTap (x : Lane) (env : LaneEnv) (m : LaneMessage) : (x.tellServed env m).waitingTap = x.waitingTap := by
  simp only [Lane.tellServed]; split <;> simp
@[simp] theorem Lane.tellServed_emptiedTaps (x : Lane) (env : LaneEnv) (m : LaneMessage) : (x.tellServed env m).emptiedTaps = x.emptiedTaps := by
  simp only [Lane.tellServed]; split <;> simp
@[simp] theorem Lane.tellServed_lastRequest (x : Lane) (env : LaneEnv) (m : LaneMessage) : (x.tellServed env m).lastRequest = x.lastRequest := by
  simp only [Lane.tellServed]; split <;> simp
@[simp] theorem Lane.tellServed_passageWindow (x : Lane) (env : LaneEnv) (m : LaneMessage) : (x.tellServed env m).passageWindow = x.passageWindow := by
  simp only [Lane.tellServed]; split <;> simp
@[simp] theorem Lane.tellServed_holdTimeout (x : Lane) (env : LaneEnv) (m : LaneMessage) : (x.tellServed env m).holdTimeout = x.holdTimeout := by
  simp only [Lane.tellServed]; split <;> simp
@[simp] theorem Lane.tellServed_rowOps (x : Lane) (env : LaneEnv) (m : LaneMessage) : (x.tellServed env m).rowOps = x.rowOps := by
  simp only [Lane.tellServed]; split <;> simp
@[simp] theorem Lane.tellServed_records (x : Lane) (env : LaneEnv) (m : LaneMessage) : (x.tellServed env m).records = x.records := by
  simp only [Lane.tellServed]; split <;> simp
@[simp] theorem Lane.tellServed_raises (x : Lane) (env : LaneEnv) (m : LaneMessage) : (x.tellServed env m).raises = x.raises := by
  simp only [Lane.tellServed]; split <;> simp
@[simp] theorem Lane.tellServed_resetsPending (x : Lane) (env : LaneEnv) (m : LaneMessage) : (x.tellServed env m).resetsPending = x.resetsPending := by
  simp only [Lane.tellServed]; split <;> simp

/-! ### `Lane.freePassage` -/

@[simp] theorem Lane.freePassage_presence (x : Lane) (env : LaneEnv) (l : LaneNo) : (x.freePassage env l).presence = x.presence := by
  simp [Lane.freePassage]
@[simp] theorem Lane.freePassage_keyPosition (x : Lane) (env : LaneEnv) (l : LaneNo) : (x.freePassage env l).keyPosition = x.keyPosition := by
  simp [Lane.freePassage]
@[simp] theorem Lane.freePassage_configuredMode (x : Lane) (env : LaneEnv) (l : LaneNo) : (x.freePassage env l).configuredMode = x.configuredMode := by
  simp [Lane.freePassage]
@[simp] theorem Lane.freePassage_actuationFail (x : Lane) (env : LaneEnv) (l : LaneNo) : (x.freePassage env l).actuationFail = x.actuationFail := by
  simp [Lane.freePassage]
@[simp] theorem Lane.freePassage_stuckOpen (x : Lane) (env : LaneEnv) (l : LaneNo) : (x.freePassage env l).stuckOpen = x.stuckOpen := by
  simp [Lane.freePassage]
@[simp] theorem Lane.freePassage_primaryLift (x : Lane) (env : LaneEnv) (l : LaneNo) : (x.freePassage env l).primaryLift = x.primaryLift := by
  simp [Lane.freePassage]
@[simp] theorem Lane.freePassage_secondaryLift (x : Lane) (env : LaneEnv) (l : LaneNo) : (x.freePassage env l).secondaryLift = x.secondaryLift := by
  simp [Lane.freePassage]
@[simp] theorem Lane.freePassage_liftInOperation (x : Lane) (env : LaneEnv) (l : LaneNo) : (x.freePassage env l).liftInOperation = x.liftInOperation := by
  simp [Lane.freePassage]
@[simp] theorem Lane.freePassage_servedLift (x : Lane) (env : LaneEnv) (l : LaneNo) : (x.freePassage env l).servedLift = x.servedLift := by
  simp [Lane.freePassage]
@[simp] theorem Lane.freePassage_dayOpen (x : Lane) (env : LaneEnv) (l : LaneNo) : (x.freePassage env l).dayOpen = x.dayOpen := by
  simp [Lane.freePassage]
@[simp] theorem Lane.freePassage_effective (x : Lane) (env : LaneEnv) (l : LaneNo) : (x.freePassage env l).effective = x.effective := by
  simp [Lane.freePassage]
@[simp] theorem Lane.freePassage_admission (x : Lane) (env : LaneEnv) (l : LaneNo) : (x.freePassage env l).admission = x.admission := by
  simp [Lane.freePassage]
@[simp] theorem Lane.freePassage_unlock (x : Lane) (env : LaneEnv) (l : LaneNo) : (x.freePassage env l).unlock = x.unlock := by
  simp [Lane.freePassage]
@[simp] theorem Lane.freePassage_latchReleased (x : Lane) (env : LaneEnv) (l : LaneNo) : (x.freePassage env l).latchReleased = x.latchReleased := by
  simp [Lane.freePassage]
@[simp] theorem Lane.freePassage_rotationLine (x : Lane) (env : LaneEnv) (l : LaneNo) : (x.freePassage env l).rotationLine = x.rotationLine := by
  simp [Lane.freePassage]
@[simp] theorem Lane.freePassage_driveWindow (x : Lane) (env : LaneEnv) (l : LaneNo) : (x.freePassage env l).driveWindow = x.driveWindow := by
  simp [Lane.freePassage]
@[simp] theorem Lane.freePassage_releaseWatch (x : Lane) (env : LaneEnv) (l : LaneNo) : (x.freePassage env l).releaseWatch = x.releaseWatch := by
  simp [Lane.freePassage]
@[simp] theorem Lane.freePassage_linkErrors (x : Lane) (env : LaneEnv) (l : LaneNo) : (x.freePassage env l).linkErrors = x.linkErrors := by
  simp [Lane.freePassage]
@[simp] theorem Lane.freePassage_showSlot (x : Lane) (env : LaneEnv) (l : LaneNo) : (x.freePassage env l).showSlot = x.showSlot := by
  simp [Lane.freePassage]
@[simp] theorem Lane.freePassage_sending (x : Lane) (env : LaneEnv) (l : LaneNo) : (x.freePassage env l).sending = x.sending := by
  simp [Lane.freePassage]
@[simp] theorem Lane.freePassage_lastShown (x : Lane) (env : LaneEnv) (l : LaneNo) : (x.freePassage env l).lastShown = x.lastShown := by
  simp [Lane.freePassage]
@[simp] theorem Lane.freePassage_validationInFlight (x : Lane) (env : LaneEnv) (l : LaneNo) : (x.freePassage env l).validationInFlight = x.validationInFlight := by
  simp [Lane.freePassage]
@[simp] theorem Lane.freePassage_waitingTap (x : Lane) (env : LaneEnv) (l : LaneNo) : (x.freePassage env l).waitingTap = x.waitingTap := by
  simp [Lane.freePassage]
@[simp] theorem Lane.freePassage_emptiedTaps (x : Lane) (env : LaneEnv) (l : LaneNo) : (x.freePassage env l).emptiedTaps = x.emptiedTaps := by
  simp [Lane.freePassage]
@[simp] theorem Lane.freePassage_lastRequest (x : Lane) (env : LaneEnv) (l : LaneNo) : (x.freePassage env l).lastRequest = x.lastRequest := by
  simp [Lane.freePassage]
@[simp] theorem Lane.freePassage_passageWindow (x : Lane) (env : LaneEnv) (l : LaneNo) : (x.freePassage env l).passageWindow = x.passageWindow := by
  simp [Lane.freePassage]
@[simp] theorem Lane.freePassage_holdTimeout (x : Lane) (env : LaneEnv) (l : LaneNo) : (x.freePassage env l).holdTimeout = x.holdTimeout := by
  simp [Lane.freePassage]
@[simp] theorem Lane.freePassage_rowOps (x : Lane) (env : LaneEnv) (l : LaneNo) : (x.freePassage env l).rowOps = x.rowOps := by
  simp [Lane.freePassage]
@[simp] theorem Lane.freePassage_raises (x : Lane) (env : LaneEnv) (l : LaneNo) : (x.freePassage env l).raises = x.raises := by
  simp [Lane.freePassage]
@[simp] theorem Lane.freePassage_resetsPending (x : Lane) (env : LaneEnv) (l : LaneNo) : (x.freePassage env l).resetsPending = x.resetsPending := by
  simp [Lane.freePassage]

/-! ### `Lane.intrusion` -/

@[simp] theorem Lane.intrusion_presence (x : Lane) (env : LaneEnv) (l : LaneNo) : (x.intrusion env l).presence = x.presence := by
  simp [Lane.intrusion]
@[simp] theorem Lane.intrusion_keyPosition (x : Lane) (env : LaneEnv) (l : LaneNo) : (x.intrusion env l).keyPosition = x.keyPosition := by
  simp [Lane.intrusion]
@[simp] theorem Lane.intrusion_configuredMode (x : Lane) (env : LaneEnv) (l : LaneNo) : (x.intrusion env l).configuredMode = x.configuredMode := by
  simp [Lane.intrusion]
@[simp] theorem Lane.intrusion_actuationFail (x : Lane) (env : LaneEnv) (l : LaneNo) : (x.intrusion env l).actuationFail = x.actuationFail := by
  simp [Lane.intrusion]
@[simp] theorem Lane.intrusion_stuckOpen (x : Lane) (env : LaneEnv) (l : LaneNo) : (x.intrusion env l).stuckOpen = x.stuckOpen := by
  simp [Lane.intrusion]
@[simp] theorem Lane.intrusion_primaryLift (x : Lane) (env : LaneEnv) (l : LaneNo) : (x.intrusion env l).primaryLift = x.primaryLift := by
  simp [Lane.intrusion]
@[simp] theorem Lane.intrusion_secondaryLift (x : Lane) (env : LaneEnv) (l : LaneNo) : (x.intrusion env l).secondaryLift = x.secondaryLift := by
  simp [Lane.intrusion]
@[simp] theorem Lane.intrusion_liftInOperation (x : Lane) (env : LaneEnv) (l : LaneNo) : (x.intrusion env l).liftInOperation = x.liftInOperation := by
  simp [Lane.intrusion]
@[simp] theorem Lane.intrusion_servedLift (x : Lane) (env : LaneEnv) (l : LaneNo) : (x.intrusion env l).servedLift = x.servedLift := by
  simp [Lane.intrusion]
@[simp] theorem Lane.intrusion_dayOpen (x : Lane) (env : LaneEnv) (l : LaneNo) : (x.intrusion env l).dayOpen = x.dayOpen := by
  simp [Lane.intrusion]
@[simp] theorem Lane.intrusion_effective (x : Lane) (env : LaneEnv) (l : LaneNo) : (x.intrusion env l).effective = x.effective := by
  simp [Lane.intrusion]
@[simp] theorem Lane.intrusion_admission (x : Lane) (env : LaneEnv) (l : LaneNo) : (x.intrusion env l).admission = x.admission := by
  simp [Lane.intrusion]
@[simp] theorem Lane.intrusion_unlock (x : Lane) (env : LaneEnv) (l : LaneNo) : (x.intrusion env l).unlock = x.unlock := by
  simp [Lane.intrusion]
@[simp] theorem Lane.intrusion_latchReleased (x : Lane) (env : LaneEnv) (l : LaneNo) : (x.intrusion env l).latchReleased = x.latchReleased := by
  simp [Lane.intrusion]
@[simp] theorem Lane.intrusion_rotationLine (x : Lane) (env : LaneEnv) (l : LaneNo) : (x.intrusion env l).rotationLine = x.rotationLine := by
  simp [Lane.intrusion]
@[simp] theorem Lane.intrusion_driveWindow (x : Lane) (env : LaneEnv) (l : LaneNo) : (x.intrusion env l).driveWindow = x.driveWindow := by
  simp [Lane.intrusion]
@[simp] theorem Lane.intrusion_releaseWatch (x : Lane) (env : LaneEnv) (l : LaneNo) : (x.intrusion env l).releaseWatch = x.releaseWatch := by
  simp [Lane.intrusion]
@[simp] theorem Lane.intrusion_linkErrors (x : Lane) (env : LaneEnv) (l : LaneNo) : (x.intrusion env l).linkErrors = x.linkErrors := by
  simp [Lane.intrusion]
@[simp] theorem Lane.intrusion_showSlot (x : Lane) (env : LaneEnv) (l : LaneNo) : (x.intrusion env l).showSlot = x.showSlot := by
  simp [Lane.intrusion]
@[simp] theorem Lane.intrusion_sending (x : Lane) (env : LaneEnv) (l : LaneNo) : (x.intrusion env l).sending = x.sending := by
  simp [Lane.intrusion]
@[simp] theorem Lane.intrusion_lastShown (x : Lane) (env : LaneEnv) (l : LaneNo) : (x.intrusion env l).lastShown = x.lastShown := by
  simp [Lane.intrusion]
@[simp] theorem Lane.intrusion_validationInFlight (x : Lane) (env : LaneEnv) (l : LaneNo) : (x.intrusion env l).validationInFlight = x.validationInFlight := by
  simp [Lane.intrusion]
@[simp] theorem Lane.intrusion_waitingTap (x : Lane) (env : LaneEnv) (l : LaneNo) : (x.intrusion env l).waitingTap = x.waitingTap := by
  simp [Lane.intrusion]
@[simp] theorem Lane.intrusion_emptiedTaps (x : Lane) (env : LaneEnv) (l : LaneNo) : (x.intrusion env l).emptiedTaps = x.emptiedTaps := by
  simp [Lane.intrusion]
@[simp] theorem Lane.intrusion_lastRequest (x : Lane) (env : LaneEnv) (l : LaneNo) : (x.intrusion env l).lastRequest = x.lastRequest := by
  simp [Lane.intrusion]
@[simp] theorem Lane.intrusion_passageWindow (x : Lane) (env : LaneEnv) (l : LaneNo) : (x.intrusion env l).passageWindow = x.passageWindow := by
  simp [Lane.intrusion]
@[simp] theorem Lane.intrusion_holdTimeout (x : Lane) (env : LaneEnv) (l : LaneNo) : (x.intrusion env l).holdTimeout = x.holdTimeout := by
  simp [Lane.intrusion]
@[simp] theorem Lane.intrusion_rowOps (x : Lane) (env : LaneEnv) (l : LaneNo) : (x.intrusion env l).rowOps = x.rowOps := by
  simp [Lane.intrusion]
@[simp] theorem Lane.intrusion_raises (x : Lane) (env : LaneEnv) (l : LaneNo) : (x.intrusion env l).raises = x.raises := by
  simp [Lane.intrusion]
@[simp] theorem Lane.intrusion_resetsPending (x : Lane) (env : LaneEnv) (l : LaneNo) : (x.intrusion env l).resetsPending = x.resetsPending := by
  simp [Lane.intrusion]

/-! ### `Lane.settle` -/

@[simp] theorem Lane.settle_presence (x : Lane)  : (x.settle).presence = x.presence := rfl
@[simp] theorem Lane.settle_keyPosition (x : Lane)  : (x.settle).keyPosition = x.keyPosition := rfl
@[simp] theorem Lane.settle_configuredMode (x : Lane)  : (x.settle).configuredMode = x.configuredMode := rfl
@[simp] theorem Lane.settle_actuationFail (x : Lane)  : (x.settle).actuationFail = x.actuationFail := rfl
@[simp] theorem Lane.settle_stuckOpen (x : Lane)  : (x.settle).stuckOpen = x.stuckOpen := rfl
@[simp] theorem Lane.settle_primaryLift (x : Lane)  : (x.settle).primaryLift = x.primaryLift := rfl
@[simp] theorem Lane.settle_secondaryLift (x : Lane)  : (x.settle).secondaryLift = x.secondaryLift := rfl
@[simp] theorem Lane.settle_liftInOperation (x : Lane)  : (x.settle).liftInOperation = x.liftInOperation := rfl
@[simp] theorem Lane.settle_servedLift (x : Lane)  : (x.settle).servedLift = x.servedLift := rfl
@[simp] theorem Lane.settle_dayOpen (x : Lane)  : (x.settle).dayOpen = x.dayOpen := rfl
@[simp] theorem Lane.settle_effective (x : Lane)  : (x.settle).effective = x.effective := rfl
@[simp] theorem Lane.settle_admission (x : Lane)  : (x.settle).admission = x.admission := rfl
@[simp] theorem Lane.settle_latchReleased (x : Lane)  : (x.settle).latchReleased = x.latchReleased := rfl
@[simp] theorem Lane.settle_rotationLine (x : Lane)  : (x.settle).rotationLine = x.rotationLine := rfl
@[simp] theorem Lane.settle_counters (x : Lane)  : (x.settle).counters = x.counters := rfl
@[simp] theorem Lane.settle_linkErrors (x : Lane)  : (x.settle).linkErrors = x.linkErrors := rfl
@[simp] theorem Lane.settle_showSlot (x : Lane)  : (x.settle).showSlot = x.showSlot := rfl
@[simp] theorem Lane.settle_sending (x : Lane)  : (x.settle).sending = x.sending := rfl
@[simp] theorem Lane.settle_lastShown (x : Lane)  : (x.settle).lastShown = x.lastShown := rfl
@[simp] theorem Lane.settle_validationInFlight (x : Lane)  : (x.settle).validationInFlight = x.validationInFlight := rfl
@[simp] theorem Lane.settle_waitingTap (x : Lane)  : (x.settle).waitingTap = x.waitingTap := rfl
@[simp] theorem Lane.settle_emptiedTaps (x : Lane)  : (x.settle).emptiedTaps = x.emptiedTaps := rfl
@[simp] theorem Lane.settle_lastRequest (x : Lane)  : (x.settle).lastRequest = x.lastRequest := rfl
@[simp] theorem Lane.settle_passageWindow (x : Lane)  : (x.settle).passageWindow = x.passageWindow := rfl
@[simp] theorem Lane.settle_holdTimeout (x : Lane)  : (x.settle).holdTimeout = x.holdTimeout := rfl
@[simp] theorem Lane.settle_rowOps (x : Lane)  : (x.settle).rowOps = x.rowOps := rfl
@[simp] theorem Lane.settle_toLifts (x : Lane)  : (x.settle).toLifts = x.toLifts := rfl
@[simp] theorem Lane.settle_records (x : Lane)  : (x.settle).records = x.records := rfl
@[simp] theorem Lane.settle_raises (x : Lane)  : (x.settle).raises = x.raises := rfl
@[simp] theorem Lane.settle_resetsPending (x : Lane)  : (x.settle).resetsPending = x.resetsPending := rfl

/-- The derived state reads the lane's inputs alone (R53). -/
theorem Lane.derived_ext {x y : Lane} (h1 : x.presence.debounced = y.presence.debounced) (h2 : x.actuationFail = y.actuationFail)
    (h3 : x.stuckOpen = y.stuckOpen) (h4 : x.keyPosition = y.keyPosition) (h5 : x.configuredMode = y.configuredMode)
    (h6 : x.dayOpen = y.dayOpen) (h7 : x.servedLift = y.servedLift) : x.derived = y.derived := by
  simp only [Lane.derived, h1, h2, h3, h4, h5, h6, h7]

/-! ### Emptied taps (R88) and the completed second (R29) -/

theorem Lane.wouldValidate_iff (x : Lane) : x.wouldValidate = true ↔ x.effective = .inService ∧ x.admission = none := by
  simp [Lane.wouldValidate]

/-- Everything an emptied tap can do: nothing where there is none, back into the slot where it would be validated beside another validation, else what R89 has it do. -/
theorem Lane.takeEmptied_cases (x : Lane) :
    (x.emptiedTaps = [] ∧ x.takeEmptied = x)
    ∨ ∃ uid rest, x.emptiedTaps = uid :: rest
      ∧ ((x.validationInFlight = true ∧ x.effective = .inService ∧ x.admission = none
            ∧ x.takeEmptied = { x with emptiedTaps := rest, waitingTap := some (x.waitingTap.getD uid) })
        ∨ ((x.validationInFlight = false ∨ x.effective ≠ .inService ∨ x.admission ≠ none)
            ∧ x.takeEmptied = Lane.takeTap { x with emptiedTaps := rest } uid)) := by
  cases h : x.emptiedTaps with
  | nil => exact .inl ⟨rfl, by simp [Lane.takeEmptied, h]⟩
  | cons uid rest =>
    refine .inr ⟨uid, rest, rfl, ?_⟩
    by_cases hv : x.validationInFlight = true ∧ x.effective = .inService ∧ x.admission = none
    · exact .inl ⟨hv.1, hv.2.1, hv.2.2, by simp [Lane.takeEmptied, h, Lane.wouldValidate, hv]⟩
    · refine .inr ⟨by simp only [not_and_or, Bool.not_eq_true] at hv; exact hv, ?_⟩
      simp only [Lane.takeEmptied, h]
      rw [if_neg]
      simpa [Lane.wouldValidate] using hv

theorem Calendar.secondDone_iff (c : Calendar) : c.secondDone = true ↔ 32768 ≤ c.subSecondPhase := decide_eq_true_iff

@[simp] theorem Calendar.count_subSecondPhase (c : Calendar) : c.count.subSecondPhase = c.subSecondPhase - 32768 := rfl
@[simp] theorem Calendar.count_secondOfDay (c : Calendar) : c.count.secondOfDay = nextSecond c.secondOfDay := rfl
@[simp] theorem Calendar.count_currentDay (c : Calendar) : c.count.currentDay = c.currentDay := rfl
@[simp] theorem Calendar.count_days (c : Calendar) : c.count.days = c.days := rfl

end Sys2Proof.Machine
end

