-- ==== Sys2Proof/Laws/Slots.lean ====
section
/-! SUPPORT. What the slots of the pass table, the day lists and the lookup do (R1, R2, R4). -/
namespace Sys2Proof.Machine

/-! ### The canonical form -/

theorem slotsWf_iff (l : List (Nat × PassRow)) :
    slotsWf l = true ↔ l.Pairwise (fun a b => a.1 < b.1) ∧ ∀ e ∈ l, e.1 < 65536 := by
  induction l with
  | nil => simp [slotsWf]
  | cons a rest ih =>
    obtain ⟨k, row⟩ := a
    cases rest with
    | nil => simp [slotsWf]
    | cons b rest =>
      obtain ⟨k', row'⟩ := b
      simp only [slotsWf, Bool.and_eq_true, decide_eq_true_eq, ih]
      constructor
      · rintro ⟨h, hp, hb⟩
        rw [List.pairwise_cons] at hp ⊢
        refine ⟨⟨?_, List.pairwise_cons.2 hp⟩, ?_⟩
        · intro e he
          rcases List.mem_cons.1 he with rfl | he
          · exact h
          · exact Nat.lt_trans h (hp.1 e he)
        · intro e he
          rcases List.mem_cons.1 he with rfl | he
          · exact Nat.lt_trans h (hb (k', row') (by simp))
          · exact hb e he
      · rintro ⟨hp, hb⟩
        rw [List.pairwise_cons] at hp
        exact ⟨hp.1 (k', row') (by simp), hp.2, fun e he => hb e (List.mem_cons_of_mem _ he)⟩

theorem slotAt_eq_none_iff (l : List (Nat × PassRow)) (k : Nat) : slotAt l k = none ↔ ∀ e ∈ l, e.1 ≠ k := by
  induction l with
  | nil => simp [slotAt]
  | cons a rest ih =>
    obtain ⟨j, row⟩ := a
    simp only [slotAt, List.forall_mem_cons]
    split
    · next h => simp [h]
    · next h => simp [ih, h]

theorem mem_of_slotAt {l : List (Nat × PassRow)} {k : Nat} {row : PassRow} (h : slotAt l k = some row) : (k, row) ∈ l := by
  induction l with
  | nil => simp [slotAt] at h
  | cons a rest ih =>
    obtain ⟨j, r⟩ := a
    simp only [slotAt] at h
    split at h
    · next e => simp_all
    · exact List.mem_cons_of_mem _ (ih h)

theorem slotAt_of_mem {l : List (Nat × PassRow)} (hw : slotsWf l = true) {k : Nat} {row : PassRow} (h : (k, row) ∈ l) :
    slotAt l k = some row := by
  rw [slotsWf_iff] at hw
  obtain ⟨hp, -⟩ := hw
  induction l with
  | nil => simp at h
  | cons a rest ih =>
    obtain ⟨j, r⟩ := a
    rw [List.pairwise_cons] at hp
    simp only [slotAt]
    rcases List.mem_cons.1 h with e | e
    · simp_all
    · have := hp.1 _ e
      simp only at this
      rw [if_neg (by omega)]
      exact ih e hp.2

theorem mem_iff_slotAt {l : List (Nat × PassRow)} (hw : slotsWf l = true) {k : Nat} {row : PassRow} :
    (k, row) ∈ l ↔ slotAt l k = some row := ⟨slotAt_of_mem hw, mem_of_slotAt⟩

/-! ### Reading after writing -/

theorem slotAt_putSlot (l : List (Nat × PassRow)) (k j : Nat) (row : PassRow) :
    slotAt (putSlot l k row) j = if j = k then some row else slotAt l j := by
  induction l with
  | nil => simp [putSlot, slotAt, eq_comm]
  | cons a rest ih =>
    obtain ⟨i, r⟩ := a
    simp only [putSlot]
    by_cases hlt : k < i
    · rw [if_pos hlt]
      simp only [slotAt]
      by_cases hjk : j = k
      · simp [hjk]
      · simp [hjk, Ne.symm hjk]
    · rw [if_neg hlt]
      by_cases hki : k = i
      · rw [if_pos hki]
        simp only [slotAt]
        by_cases hjk : j = k
        · simp [hjk]
        · subst hki; simp [hjk, Ne.symm hjk]
      · rw [if_neg hki]
        simp only [slotAt, ih]
        by_cases hij : i = j
        · have : j ≠ k := by omega
          simp [hij, this]
        · simp [hij]

theorem mem_putSlot {l : List (Nat × PassRow)} {k : Nat} {row : PassRow} {e : Nat × PassRow} (h : e ∈ putSlot l k row) :
    e = (k, row) ∨ e ∈ l := by
  induction l with
  | nil => simpa [putSlot] using h
  | cons a rest ih =>
    obtain ⟨i, r⟩ := a
    simp only [putSlot] at h
    split at h
    · simpa using h
    · split at h
      · rcases List.mem_cons.1 h with h | h
        · exact .inl h
        · exact .inr (List.mem_cons_of_mem _ h)
      · rcases List.mem_cons.1 h with h | h
        · exact .inr (by simp [h])
        · rcases ih h with h | h
          · exact .inl h
          · exact .inr (List.mem_cons_of_mem _ h)

theorem slotsWf_putSlot {l : List (Nat × PassRow)} (hw : slotsWf l = true) {k : Nat} (hk : k < 65536) (row : PassRow) :
    slotsWf (putSlot l k row) = true := by
  rw [slotsWf_iff] at hw ⊢
  obtain ⟨hp, hb⟩ := hw
  refine ⟨?_, fun e he => ?_⟩
  · clear hb
    induction l with
    | nil => simp [putSlot]
    | cons a rest ih =>
      obtain ⟨i, r⟩ := a
      rw [List.pairwise_cons] at hp
      simp only [putSlot]
      split
      · next h =>
        refine List.pairwise_cons.2 ⟨?_, List.pairwise_cons.2 hp⟩
        intro e he
        rcases List.mem_cons.1 he with rfl | he
        · exact h
        · exact Nat.lt_trans h (hp.1 e he)
      · split
        · next h =>
          subst h
          exact List.pairwise_cons.2 ⟨hp.1, hp.2⟩
        · next h1 h2 =>
          refine List.pairwise_cons.2 ⟨?_, ih hp.2⟩
          intro e he
          rcases mem_putSlot he with rfl | he
          · simp only; omega
          · exact hp.1 e he
  · rcases mem_putSlot he with rfl | he
    · exact hk
    · exact hb e he

theorem freeSlot_sublist (l : List (Nat × PassRow)) (k : Nat) : (freeSlot l k).Sublist l := by
  induction l with
  | nil => simp [freeSlot]
  | cons a rest ih =>
    obtain ⟨i, r⟩ := a
    simp only [freeSlot]
    split
    · exact List.sublist_cons_self _ _
    · exact ih.cons_cons _

theorem slotsWf_freeSlot {l : List (Nat × PassRow)} (hw : slotsWf l = true) (k : Nat) : slotsWf (freeSlot l k) = true := by
  rw [slotsWf_iff] at hw ⊢
  exact ⟨hw.1.sublist (freeSlot_sublist l k), fun e he => hw.2 e ((freeSlot_sublist l k).subset he)⟩

theorem slotAt_freeSlot {l : List (Nat × PassRow)} (hw : slotsWf l = true) (k j : Nat) :
    slotAt (freeSlot l k) j = if j = k then none else slotAt l j := by
  rw [slotsWf_iff] at hw
  obtain ⟨hp, -⟩ := hw
  induction l with
  | nil => simp [freeSlot, slotAt]
  | cons a rest ih =>
    obtain ⟨i, r⟩ := a
    rw [List.pairwise_cons] at hp
    simp only [freeSlot]
    by_cases hik : i = k
    · rw [if_pos hik]
      by_cases hjk : j = k
      · rw [if_pos hjk, slotAt_eq_none_iff]
        intro e he
        have := hp.1 e he
        simp only at this
        omega
      · rw [if_neg hjk]
        simp only [slotAt]
        rw [if_neg (by omega)]
    · rw [if_neg hik]
      simp only [slotAt, ih hp.2]
      by_cases hij : i = j
      · have : j ≠ k := by omega
        simp [hij, this]
      · simp [hij]

/-! ### Buckets and lookup -/

theorem bucketOf_lt (uid : Uid) : bucketOf uid < 8192 := Nat.mod_lt _ (by decide)

theorem mem_bucketSlots {bucket slot : Nat} : slot ∈ bucketSlots bucket ↔ slot / 8 = bucket := by
  simp only [bucketSlots, List.mem_map, List.mem_range]
  constructor
  · rintro ⟨a, ha, rfl⟩; omega
  · intro h; exact ⟨slot % 8, Nat.mod_lt _ (by decide), by omega⟩

theorem slot_lt_of_bucket {slot : Nat} {uid : Uid} (h : slot / 8 = bucketOf uid) : slot < 65536 := by
  have := bucketOf_lt uid
  omega

theorem lookup_some {l : List (Nat × PassRow)} {uid : Uid} {slot : Nat} {row : PassRow}
    (h : lookup l uid = some (slot, row)) : slotAt l slot = some row ∧ row.uid = uid ∧ slot / 8 = bucketOf uid := by
  obtain ⟨k, hk, hf⟩ := List.exists_of_findSome?_eq_some h
  rw [mem_bucketSlots] at hk
  split at hf
  · next r hr =>
    split at hf
    · next hu =>
      simp only [Option.some.injEq, Prod.mk.injEq] at hf
      obtain ⟨rfl, rfl⟩ := hf
      exact ⟨hr, hu, hk⟩
    · simp at hf
  · simp at hf

theorem lookup_none {l : List (Nat × PassRow)} {uid : Uid} (h : lookup l uid = none) {slot : Nat} {row : PassRow}
    (hs : slot / 8 = bucketOf uid) (hr : slotAt l slot = some row) : row.uid ≠ uid := by
  have := List.findSome?_eq_none_iff.1 h slot (mem_bucketSlots.2 hs)
  simp only [hr] at this
  intro hu
  simp [hu] at this

theorem freeSlotFor_some {l : List (Nat × PassRow)} {uid : Uid} {slot : Nat} (h : freeSlotFor l uid = some slot) :
    slotAt l slot = none ∧ slot / 8 = bucketOf uid := by
  refine ⟨?_, mem_bucketSlots.1 (List.mem_of_find?_eq_some h)⟩
  simpa using List.find?_some h

/-! ### Day lists -/

theorem ascending_iff (l : List Nat) : ascending l = true ↔ l.Pairwise (· < ·) := by
  induction l with
  | nil => simp [ascending]
  | cons a rest ih =>
    cases rest with
    | nil => simp [ascending]
    | cons b rest =>
      simp only [ascending, Bool.and_eq_true, decide_eq_true_eq, ih]
      constructor
      · rintro ⟨h, hp⟩
        refine List.pairwise_cons.2 ⟨?_, hp⟩
        intro e he
        rcases List.mem_cons.1 he with rfl | he
        · exact h
        · exact Nat.lt_trans h ((List.pairwise_cons.1 hp).1 e he)
      · intro hp
        exact ⟨(List.pairwise_cons.1 hp).1 b (by simp), (List.pairwise_cons.1 hp).2⟩

@[simp] theorem mem_insertDay (d e : Nat) (l : List Nat) : e ∈ insertDay d l ↔ e = d ∨ e ∈ l := by
  induction l with
  | nil => simp [insertDay]
  | cons x rest ih =>
    simp only [insertDay]
    split
    · simp
    · split
      · next h => simp [h]
      · simp [ih, or_left_comm]

theorem ascending_insertDay {l : List Nat} (h : ascending l = true) (d : Nat) : ascending (insertDay d l) = true := by
  rw [ascending_iff] at h ⊢
  induction l with
  | nil => simp [insertDay]
  | cons x rest ih =>
    rw [List.pairwise_cons] at h
    simp only [insertDay]
    split
    · next hx =>
      refine List.pairwise_cons.2 ⟨?_, List.pairwise_cons.2 h⟩
      intro e he
      rcases List.mem_cons.1 he with rfl | he
      · exact hx
      · exact Nat.lt_trans hx (h.1 e he)
    · split
      · exact List.pairwise_cons.2 h
      · next h1 h2 =>
        refine List.pairwise_cons.2 ⟨?_, ih h.2⟩
        intro e he
        rcases (mem_insertDay _ _ _).1 he with rfl | he
        · omega
        · exact h.1 e he

theorem length_insertDay_le (d : Nat) (l : List Nat) : (insertDay d l).length ≤ l.length + 1 := by
  induction l with
  | nil => simp [insertDay]
  | cons x rest ih =>
    simp only [insertDay]
    split
    · simp
    · split
      · simp
      · simpa using ih

theorem ascending_unionDays {stored given : List Nat} (h : ascending stored = true) : ascending (unionDays stored given) = true := by
  simp only [unionDays]
  induction given generalizing stored with
  | nil => exact h
  | cons d rest ih => exact ih (ascending_insertDay h d)

@[simp] theorem mem_unionDays (stored given : List Nat) (e : Nat) : e ∈ unionDays stored given ↔ e ∈ stored ∨ e ∈ given := by
  simp only [unionDays]
  induction given generalizing stored with
  | nil => simp
  | cons d rest ih =>
    simp only [List.foldl_cons, ih, mem_insertDay, List.mem_cons]
    tauto

end Sys2Proof.Machine
end

