-- ==== Sys2Proof/WellFormed.lean ====
section
/-! DEFINITION. The commands that can arrive: what the line interfaces can deliver for each command that carries bytes. -/
namespace Sys2Proof

/-- The bytes of a lane frame the command may carry: those of a TAP for TAP, those of a KEY for KEY, those of neither for LANE_FRAME_DROP (R49,
R198). A trunk frame is no longer than the data field of an Ethernet frame, 1,500 bytes (R187; log entry 22). -/
def Instr.WellFormed : Instr → Bool
  | .trunkFrameReceive frame => decide (frame.length ≤ 1500)
  | .tap _ frame =>
    (match Machine.parseLaneFrame frame with
    | .tap _ => true
    | .key _ | .bad => false)
  | .key _ frame =>
    (match Machine.parseLaneFrame frame with
    | .key _ => true
    | .tap _ | .bad => false)
  | .laneFrameDrop _ frame =>
    (match Machine.parseLaneFrame frame with
    | .bad => true
    | .tap _ | .key _ => false)
  | .powerOnReset | .memoryClearDone | .stationReset | .cabinetResetLine | .laneStationReset _ | .liftStationReset _
  | .requestRoute | .transmitFrame | .noticeRaise _ | .passPut | .passSetStatus | .passDelete | .passRead | .usageMerge
  | .productPut | .productClear | .productRead | .protectSet | .serviceKeyLineChange _ | .serviceKeyDebounceExpiry
  | .dayOpen | .dayClose | .time | .calendarPut | .calendarRead | .countAdvance | .laneDayOpen _ | .laneDayClose _
  | .journalDayOpen | .protectionDayOpen | .laneRelease _ | .laneLock _ | .laneFaultClear _ | .laneConfig _ | .laneRead _
  | .presentLineChange _ _ | .presenceDebounceExpiry _ | .latchSenseChange _ _ | .driveWindowExpiry _
  | .releaseWatchExpiry _ | .waitingTapTake _ | .validation _ | .showSend _ _ | .rotation _ _ | .passageCommit _
  | .headRecord _ | .closingRowOperation _ | .passageWindowExpiry _ | .holdTimeoutExpiry _ | .passStatusCancellation _
  | .placeRequest _ _ | .place _ _ | .hold _ _ | .refusal _ _ | .liftPassage _ _ | .release _ _ | .leave _ _
  | .liftFreePassage _ _ | .liftIntrusion _ _ | .carrierPulse _ _ | .liftLineChange _ _ _ | .liftDebounceExpiry _
  | .liftConfig _ | .liftRead _ | .inOperationChange _ _ | .passageRecordTake _ | .journalAck | .journalReplay
  | .journalRead | .refundQuote | .refundRetire | .streamOpen | .streamData | .streamChunkRow | .streamSuspend
  | .streamResume | .streamClose | .streamAbort | .streamIdleExpiry | .sweepStep | .status | .restart | .config _
  | .noticeMask | .noticeAck | .resetLineChange _ | .showSent _ => true

end Sys2Proof
end

