-- ==== Sys2Proof/Tests/Slice0.lean ====
section
/-! SUPPORT. Small tests of the model, their expected values taken from the manual, and for each statement with hypotheses a state that meets them. -/
namespace Sys2Proof.Tests
open Sys2Proof Sys2Proof.Machine

set_option Elab.async false

/-! ### States to test on -/

/-- The UID of the manual's worked cases (R1). -/
def pass : Uid := 0x04A13C9E7F200B15

/-- Its bucket's first slot (R1). -/
def slot : Nat := 24656

/-- The part after its memory clear. -/
def ready : State := { State.reset with trunk := { TrunkPort.powerOn with partStatus := .ready } }

/-- Product 17 of section 8.3.1, with its row. -/
def product17 : Product :=
  { isDefined := true, kind := .multiDay, dayCount := 5, validFrom := 30, validTo := 90, liftMask := 0x21, rerideInterval := 60,
    groupAllowed := true, refundable := true, refundGrace := 7, peakRate := 8900, regularRate := 7600, lowRate := 5800,
    refundFee := 1500, rowCount := 1 }

/-- A SEASON product. -/
def product9 : Product :=
  { product17 with kind := .season, dayCount := 0, refundable := false, rowCount := 0 }

/-- The pass of section 8.3.1. -/
def row17 : PassRow :=
  { uid := pass, product := 17, status := .active, headcount := 2, pricePerHead := 34500, expiryDay := none, consumed := [41, 42],
    seasonDays := 0, lastCountedDay := none, lastPassage := none, pendingLane := none, refund := none, generation := 1 }

/-- The calendar of section 8.3.1: day 43 is OPEN, day 41 was PEAK, day 42 REGULAR with a frozen credit of 37; a second of the crystal is
complete. -/
def calendar43 : Calendar :=
  let days := Calendar.powerOn.days
  let days := days.set 41 { DayRecord.powerOn with dayClass := .peak, source := .frozen, state := .closed }
  let days := days.set 42 { DayRecord.powerOn with creditPercent := 37, source := .frozen, state := .closed }
  let days := days.set 43 { DayRecord.powerOn with state := .opened }
  { Calendar.powerOn with days := days, currentDay := some 43, secondOfDay := 36000, subSecondPhase := 32768 }

/-- A lane in service for lift 0. -/
def lane0 : Lane :=
  { Lane.powerOn true false false with
    presence := { line := true, debounced := true, remaining := none }
    configuredMode := .released, liftInOperation := (Vector.replicate 4 false).set 0 true, servedLift := some 0, dayOpen := true,
    effective := .inService, rotationLine := { active := false, inactiveMs := 20 } }

/-- Lift 0, RUNNING, as resort lift 5, with a corral for four. -/
def lift0 : Lift :=
  { Lift.powerOn .running false with
    enabled := true, resortLift := 5, corralLimit := 4, lineState := { line := .running, debounced := .running, remaining := none },
    carrierLine := { active := false, inactiveMs := 20 }, occupancy := 2 }

/-- The part at work: a pass of product 17, day 43 OPEN, lane 0 in service for lift 0. -/
def busy : State :=
  { ready with
    table := { PassTable.powerOn with slots := [(slot, row17)], usedSlots := 1 }
    products := ((Vector.replicate 256 Product.undefinedRecord).set 17 product17).set 9 product9
    calendar := calendar43
    lanes := (Vector.replicate 12 (Lane.powerOn false false false)).set 0 lane0
    lifts := (Vector.replicate 4 (Lift.powerOn .closedSchedule false)).set 0 lift0 }

/-- A request at its owner, its reply place reserved. -/
def request (o : Owner) (k : RequestKind) (body : List Byte) : Routed := { owner := o, kind := k, body := body, place := some 0 }

/-- The reply place that request has. -/
def placeFor (k : RequestKind) (awaiting : Nat) : ReservedPlace :=
  { number := 0, kind := k, tag := 0x1234, awaiting := awaiting, changed := false, flagged := false, stored := settingsForm [] }

/-- A part with one request routed. -/
def asked (s : State) (o : Owner) (k : RequestKind) (body : List Byte) : State :=
  { s with routed := [request o k body], trunk := { s.trunk with reserved := [placeFor k 1] } }

/-- The part at work with lane 0 as given. -/
def withLane (f : Lane → Lane) : State := busy.setLane 0 (f lane0)

/-- The part at work with lift 0 as given. -/
def withLift (f : Lift → Lift) : State := busy.setLift 0 (f lift0)

/-- The part at work with the pass's row as given. -/
def withRow (f : PassRow → PassRow) : State := { busy with table := { busy.table with slots := [(slot, f row17)] } }

/-- The pass's admission at lane 0, in a phase. -/
def admitted (phase : Option Phase) (passed : Nat) : Admission :=
  { slot := slot, uid := pass, lane := 0, lift := 0, phase := phase, headsTotal := 2, headsPassed := passed, request := 1,
    deadline := phase.map fun _ => { setAt := 0, duration := 8000 }
    holdStart := if phase = some .hold then some 0 else none }

/-- A record of a passage, as the pass table hands it. -/
def record (second : Nat) (lift : Option LiftNo) : RecordBody :=
  { kind := .passage, second := second, day := some 43, lane := some 0, lift := lift, uid := some pass, headIndex := some 1,
    newDay := some true, amountPerHead := none, headcount := none, unusedDays := none }

/-- The ring of the example of R135. -/
def wrapped : Journal :=
  { Journal.powerOn with
    ring := [4294967294, 4294967295, 1, 2].map fun q => { sequence := q, resortLift := some 5, body := record 0 (some 0) }
    nextSequence := 3, sendPosition := some 1, replayCursor := some 2 }

/-- The body of a PASS_PUT of the pass: status, headcount, the generation, the price and two days. -/
def putBody (product status headcount : Byte) (days : List Byte) : List Byte :=
  uidBytes pass ++ [product, status, headcount, 0, 0, 1] ++ be 34500 4 ++ [0, 0, 0, BitVec.ofNat 8 days.length] ++ padTo 14 days

/-- The state an outcome answers; the part after reset if it answers none. -/
def after (o : Host.Outcome State Fault Refusal) : State :=
  match o with
  | .next t => t
  | _ => State.reset

/-- Whether an outcome answers a next state. -/
def answers (o : Host.Outcome State Fault Refusal) : Bool :=
  match o with
  | .next _ => true
  | _ => false

theorem next_of_answers {o : Host.Outcome State Fault Refusal} (h : answers o = true) : o = .next (after o) := by
  cases o <;> first | rfl | cases h

/-- The body of the first reply a command fills. -/
def replied (c : Instr) (s : State) : Option (List Byte) := ((after (exec c s)).trunk.filled.getLast?).map (·.body)

/-! ### Well-formedness refuses what the line interfaces cannot deliver -/

theorem test_long_trunk_frame_is_ill_formed : (Instr.trunkFrameReceive (List.replicate 1501 1)).WellFormed = false := by decide +kernel

theorem test_key_bytes_are_no_tap : (Instr.tap 0 [2, 1, 1, 252]).WellFormed = false := by decide +kernel

theorem test_damaged_bytes_are_no_key : (Instr.key 0 [2, 1, 1, 253]).WellFormed = false := by decide +kernel

theorem test_key_with_no_position_is_no_key : (Instr.key 0 [2, 1, 3, 250]).WellFormed = false := by decide +kernel

theorem test_good_key_is_not_dropped : (Instr.laneFrameDrop 0 [2, 1, 1, 252]).WellFormed = false := by decide +kernel

theorem test_table_gives_no_bits : decodeTableWord 8 1 = none := by decide

/-! ### Worked cases and examples of the manual -/

/-- R1. -/
theorem test_bucket_of_worked_case : bucketOf pass = 3082 ∧ slot = 8 * bucketOf pass := by decide +kernel

/-- R129. -/
theorem test_distance_over_the_wrap : sequenceDistance 4294967290 3 = 8 := by decide +kernel

/-- R135. -/
theorem test_ack_frees_three : ((wrapped.free 1).ring.map (·.sequence)) = [2] := by decide +kernel

/-- R135: then 4,294,967,295 lies among those freed, and 3 has not been appended. -/
theorem test_ack_after_the_wrap :
    (wrapped.free 1).ackCode 4294967295 = .okNoChange ∧ (wrapped.free 1).ackCode 3 = .badSequence := by decide +kernel

/-- R138. -/
theorem test_marks_are_clamped :
    (Journal.powerOn.setMarks 3000 5000).lowMark = 3000 ∧ (Journal.powerOn.setMarks 3000 5000).highMark = 4080
      ∧ (Journal.powerOn.setMarks 2000 2000).lowMark = 1999 ∧ (Journal.powerOn.setMarks 2000 2000).highMark = 2000 := by
  decide +kernel

/-- R151. -/
theorem test_weather_terms :
    ([(7600, 37), (5800, 37), (8901, 37), (99999, 33), (8900, 100), (8900, 0)].map fun p : Nat × Nat =>
      DayTerm.weather { rate := p.1, credit := p.2 }) = [2812, 2146, 3293, 32999, 8900, 0] := by decide +kernel

/-- Section 8.3.1: the figures of a refund, from the row, the product and the calendar. -/
theorem test_refund_worked_case :
    busy.figures product17 row17 row17.consumed =
      { consumed := 16500, weather := 2812, gross := 20812, net := 19312, total := 38624 } := by decide +kernel

/-- Section 8.3.2: a pass whose rides are worth more than its price. -/
theorem test_refund_clamp :
    figuresOf 15000 1500 1 [{ rate := 8900, credit := 0 }, { rate := 8900, credit := 0 }] =
      { consumed := 17800, weather := 0, gross := 0, net := 0, total := 0 } := by decide +kernel

/-- Section 8.3.2: had one of the two days carried a credit of 100. -/
theorem test_refund_with_one_day_credited :
    (figuresOf 15000 1500 1 [{ rate := 8900, credit := 100 }, { rate := 8900, credit := 0 }]).net = 4600 := by decide +kernel

/-- R37: 300 closed lift-minutes against 120 operating minutes on two lifts. -/
theorem test_credit_is_capped :
    State.creditPercent
      { ready with
        lifts := ((Vector.replicate 4 (Lift.powerOn .closedSchedule false)).set 0 lift0).set 1 lift0
        calendar := Calendar.setDay calendar43 43 { DayRecord.powerOn with operatingMinutes := 120, closedLiftMinutes := 300 } } 43
      = 100 := by decide +kernel

/-- Section 2.7.1: 60 closed lift-minutes of 1,440, and 59. -/
theorem test_credit_at_the_threshold :
    let s (n : Nat) : State :=
      { ready with
        lifts := (((Vector.replicate 4 (Lift.powerOn .closedSchedule false)).set 0 lift0).set 1 lift0).set 2 lift0
        calendar := Calendar.setDay calendar43 42 { DayRecord.powerOn with closedLiftMinutes := n } }
    (s 60).creditPercent 42 = 4 ∧ (s 59).creditPercent 42 = 0 := by decide +kernel

/-- R198: the bytes of a TAP and of a KEY FREE add up to 0 with their check byte. -/
theorem test_lane_frames_spelt :
    tapFrame pass = [1, 8, 0x04, 0xA1, 0x3C, 0x9E, 0x7F, 0x20, 0x0B, 0x15, 0xB9] ∧ keyFrame .free = [2, 1, 1, 252] := by
  decide +kernel

/-- R198: the SHOW of a denial BLOCKED is kind 81 (hexadecimal), length 3, SEE_OFFICE 3, reason 23, 0 heads, and the check byte. -/
theorem test_show_is_sent_as_its_frame :
    let shown := { lane0 with showSlot := some { signal := .seeOffice, reason := .denied .blocked, heads := 0 } }
    ((after (exec (.showSend 0 false) (busy.setLane 0 shown))).lane 0).sending = some [0x81, 3, 3, 23, 0, 0x62] := by decide +kernel

/-- R191, R197: STATUS of the part just reset: OK, the identity 3E1A, 2460, C, and STARTING. -/
theorem test_status_of_a_starting_part :
    (replied .status (asked State.reset .trunkPort .status [])).map (·.take 7) = some [0, 0x3E, 0x1A, 0x24, 0x60, 0x43, 0] := by decide +kernel

/-- R190: any request but STATUS is answered STARTING, code 4. -/
theorem test_starting_is_answered :
    replied .requestRoute
      { State.reset with trunk := { TrunkPort.powerOn with rxQueue := [{ kind := 0x12, tag := 7, body := [0, 0, 0, 9] }] } }
      = some [4] := by decide +kernel


/-! ### One command on a small state -/

/-- Section 8.4.1: the retirement pays 19,312 per head and its record takes sequence 1. -/
theorem test_retirement_worked_case :
    let t := after (exec .refundRetire (asked busy .refundUnit .refundRequest (uidBytes pass ++ [1])))
    (slotAt t.table.slots slot).map (fun r => (r.status, r.refund)) =
        some (.retired, some { paidPerHead := 19312, balancePerHead := 19312, retireDay := 43 })
      ∧ t.journal.ring.map (fun r => (r.sequence, r.body.amountPerHead, r.body.headcount, r.body.unusedDays)) =
        [(1, some 19312, some 2, some 3)] := by decide +kernel

/-- The row of section 8.6.1, with day 43 LOW. -/
def retired : State :=
  { withRow fun r => { r with status := .retired, refund := some { paidPerHead := 19312, balancePerHead := 19312, retireDay := 43 } } with
    calendar := Calendar.setDay calendar43 43 { DayRecord.powerOn with dayClass := .low, state := .opened } }

/-- Section 8.6.1, E1: the merge of day 43 lowers the balance to 13,512 and reclaims 5,800 per head. -/
theorem test_late_merge_worked_case :
    let t := after (exec .usageMerge (asked retired .passTable .usageMerge (uidBytes pass ++ [43])))
    (slotAt t.table.slots slot).map (fun r => (r.consumed, r.refund)) =
        some ([41, 42, 43], some { paidPerHead := 19312, balancePerHead := 13512, retireDay := 43 })
      ∧ t.journal.ring.map (fun r => (r.body.kind, r.body.amountPerHead, r.body.headcount)) =
        [(.adjustment, some 5800, some 2)] := by decide +kernel

/-- Section 8.6.1: a merge is refused JOURNAL_FULL, code 28, while 4,096 records are held, and writes nothing. -/
theorem test_merge_meets_a_full_journal :
    let s := { retired with journal :=
      { retired.journal with ring := List.replicate 4096 { sequence := 1, resortLift := none, body := record 0 none } } }
    let t := after (exec .usageMerge (asked s .passTable .usageMerge (uidBytes pass ++ [43])))
    t.trunk.filled.map (·.body.head?) = [some 28] ∧ (slotAt t.table.slots slot).map (·.consumed) = some [41, 42] := by
  decide +kernel

/-- R10: with the first slot of the bucket taken by another UID of the bucket, the row goes to the next. -/
theorem test_put_takes_the_lowest_free_slot :
    let s := { busy with table := { busy.table with slots := [(slot, { row17 with uid := pass ^^^ 0x00010001 })] } }
    let t := after (exec .passPut (asked s .passTable .passPut (putBody 17 0 2 [41])))
    (slotAt t.table.slots (slot + 1)).map (fun r => (r.uid, r.consumed)) = some (pass, [41])
      ∧ t.table.usedSlots = 2 ∧ (t.product 17).rowCount = 2 := by decide +kernel

/-- R11: an update joins the day lists. -/
theorem test_put_joins_day_lists :
    let t := after (exec .passPut (asked busy .passTable .passPut (putBody 17 0 2 [40, 42])))
    (slotAt t.table.slots slot).map (·.consumed) = some [40, 41, 42] ∧ t.table.usedSlots = 1 := by decide +kernel

/-- R9: a day after the current day is FUTURE_DAY, code 19. -/
theorem test_put_of_a_future_day :
    replied .passPut (asked busy .passTable .passPut (putBody 17 0 2 [44])) = some [19] := by decide +kernel

/-- R14: a row with a pending lane is PASS_BUSY, code 16. -/
theorem test_delete_of_a_pending_row :
    replied .passDelete (asked (withRow fun r => { r with pendingLane := some 3 }) .passTable .passDelete (uidBytes pass))
      = some [16] := by decide +kernel

/-- R12: a blocked row with a pending lane hands that lane a cancellation. -/
theorem test_block_hands_a_cancellation :
    (after (exec .passSetStatus
      (asked (withRow fun r => { r with pendingLane := some 3 }) .passTable .passSetStatus (uidBytes pass ++ [1])))).table.cancellations[3]
      = [pass] := by decide +kernel

/-- R24: in LOCKED a covered product is PROTECTED, code 11, even by a PRODUCT_CLEAR of a product in use. -/
theorem test_locked_product_is_protected :
    replied .productClear
      (asked { busy with protection := { mode := .locked, low := 17, high := 17, sense := .inside } } .productTable .productClear [17])
      = some [11] := by decide +kernel

/-- R31: the day OPEN closes first. -/
theorem test_open_over_an_open_day :
    replied .dayOpen (asked busy .calendar .dayOpen [44]) = some [5] := by decide +kernel

/-- R29, R35: the clock turns over to 0, a multiple of 60, and a lift held in CLOSED_WEATHER is gathered. -/
theorem test_minute_boundary_at_midnight :
    let s := { withLift fun x => { x with lineState := { line := .closedWeather, debounced := .closedWeather, remaining := none } } with
      calendar := { calendar43 with secondOfDay := 86399 } }
    let t := after (exec .countAdvance s)
    t.calendar.secondOfDay = 0 ∧ (t.calendar.day 43).closedLiftMinutes = 1 := by decide +kernel

/-- R30, R41: a second that TIME has written stands for a full second of the crystal, though one had just been completed. -/
theorem test_time_then_count :
    let t := after (exec .countAdvance (after (exec .time (asked busy .calendar .time (be 59 4)))))
    t.calendar.secondOfDay = 59 ∧ (t.calendar.day 43).closedLiftMinutes = 0
      ∧ (after (exec .countAdvance { t with calendar := { t.calendar with subSecondPhase := 32769 } })).calendar
        = { t.calendar with secondOfDay := 60, subSecondPhase := 1 } := by decide +kernel

/-- R88, R89: an emptied tap is denied by the lane context as it stands, though another validation is in flight. -/
theorem test_emptied_tap_at_a_locked_lane :
    let t := after (exec (.waitingTapTake 0)
      (withLane fun x => { x with emptiedTaps := [pass], validationInFlight := true, configuredMode := .locked, effective := .locked }))
    (t.lane 0).waitingTap = none ∧ (t.lane 0).showSlot = some { signal := .red, reason := .denied .laneLocked, heads := 0 } := by
  decide +kernel

/-- R46: the line back at the debounced level stops the debounce. -/
theorem test_presence_bounce :
    ((after (exec (.presentLineChange 0 true) (after (exec (.presentLineChange 0 false) busy)))).lane 0).presence.remaining = none := by
  decide +kernel

/-- R90: another pass at a lane with an admission is denied LANE_BUSY with RED and the heads remaining. -/
theorem test_tap_at_a_busy_lane :
    ((after (exec (.tap 0 (tapFrame 5)) (withLane fun x => { x with admission := some (admitted (some .unlocked) 1) }))).lane 0).showSlot
      = some { signal := .red, reason := .denied .laneBusy, heads := 1 } := by decide +kernel

/-- R95: the product's last valid day is 90, its first 30. -/
theorem test_validity_at_its_ends :
    ([29, 30, 90, 91].map fun d => validOn product17 row17 d) = [false, true, true, false] := by decide +kernel

/-- R97: with an interval of 60 s, 59 s after the last passage is TOO_SOON, 60 s is not, and a clock set back counts as 0. -/
theorem test_reride_interval :
    let r := { row17 with lastPassage := some { lift := 0, day := 43, second := 36000 } }
    ([36059, 36060, 35000].map fun n => tooSoon product17 r 0 43 n) = [true, false, true] := by decide +kernel

/-- R99: a grant leaves the pass pending at the lane and hands the lift request 1. -/
theorem test_grant :
    let t := after (exec (.validation 0) (withLane fun x => { x with rowOps := [.validate pass], validationInFlight := true }))
    (slotAt t.table.slots slot).map (·.pendingLane) = some (some 0)
      ∧ (t.lane 0).toLifts[(0 : LiftNo)] = [.placeRequest 1] ∧ ((t.lane 0).admission.map (·.headsTotal)) = some 2 := by
  decide +kernel

/-- R111, R116: the last head's passage ends the admission COMPLETE and releases UNLOCK. -/
theorem test_last_head :
    let t := after (exec (.rotation 0 true)
      (withLane fun x => { x with admission := some (admitted (some .unlocked) 1), unlock := true, lastRequest := 1 }))
    (t.lane 0).admission = none ∧ (t.lane 0).unlock = false ∧ (t.lane 0).rowOps.length = 2
      ∧ (t.lane 0).showSlot = some { signal := .dark, reason := .complete, heads := 0 } := by decide +kernel

/-- R61: activity less than 20 ms after the line went inactive is no rotation. -/
theorem test_rotation_needs_20_ms :
    ((after (exec (.rotation 0 true) (withLane fun x => { x with rotationLine := { active := false, inactiveMs := 19 } }))).lane 0).counters.intrusions
      = 0 := by decide +kernel

/-- R112: the commit of a new day with room, at the manual's stamp. -/
theorem test_commit_of_a_new_day :
    let t := after (exec (.passageCommit 0)
      (withLane fun x => { x with rowOps := [.passage slot pass 1 0 { day := some 43, second := 36000 }] }))
    (slotAt t.table.slots slot).map (·.consumed) = some [41, 42, 43] ∧ t.table.records.map (·.newDay) = [some true] := by
  decide +kernel

/-- R118: a balk counts a balk and hands the lift a release. -/
theorem test_balk :
    let t := after (exec (.passageWindowExpiry 0)
      { withLane (fun x => { x with admission := some (admitted (some .unlocked) 0) }) with timebase := 8000 })
    (t.lane 0).counters.balks = 1 ∧ (t.lane 0).toLifts[(0 : LiftNo)] = [.release 1] := by decide +kernel

/-- R79, R80: with four of four places taken a request is queued and answered with a hold. -/
theorem test_full_corral_holds :
    let s := { withLift (fun x => { x with occupancy := 4 }) with
      lanes := busy.lanes.set 0 { lane0 with toLifts := (Vector.replicate 4 []).set 0 [.placeRequest 1] } }
    let t := after (exec (.placeRequest 0 0) s)
    (t.lift 0).answers[(0 : LaneNo)] = [.hold 1] ∧ (t.lift 0).holdQueue.length = 1 := by decide +kernel

/-- R77, R81: a pulse takes four seats, to no less than 0, and the oldest held request gets its place. -/
theorem test_pulse_makes_room :
    let t := after (exec (.carrierPulse 0 true) (withLift fun x =>
      { x with occupancy := 3, corralLimit := 3, holdQueue := [{ lane := 2, request := 9, holdStart := 0 }] }))
    (t.lift 0).occupancy = 0 ∧ (t.lift 0).answers[(2 : LaneNo)] = [.place 9] ∧ (t.lift 0).holdQueue = [] := by decide +kernel

/-- R84: leaving operation empties the corral and is handed to every lane. -/
theorem test_lift_leaves_operation :
    let t := after (exec (.liftDebounceExpiry 0) (withLift fun x =>
      { x with lineState := { line := .closedWeather, debounced := .running, remaining := some 0 } }))
    (t.lift 0).occupancy = 0 ∧ (t.lift 0).changes[(11 : LaneNo)] = [false] := by decide +kernel

/-- R130: at 4,080 held a passage record is not written; the lift's overflow counter and its bin count. -/
theorem test_passage_record_overflows :
    let s := { busy with
      journal := { busy.journal with ring := List.replicate 4080 { sequence := 1, resortLift := none, body := record 0 none } }
      table := { busy.table with records := [record 3600 (some 0)] } }
    let t := after (exec (.passageRecordTake .passTable) s)
    t.journal.held = 4080 ∧ t.journal.liftOverflow[(0 : LiftNo)] = 1 ∧ t.journal.bins[(0 : LiftNo)][(1 : Fin 24)] = 1 := by
  decide +kernel

/-- R189: a reply goes out before a notice. -/
theorem test_replies_go_first :
    let s := { State.reset with trunk := { TrunkPort.powerOn with filled := [{ kind := 0xC0, tag := 0x0102, body := [0] }] } }
    (after (exec .transmitFrame s)).trunk.transmitter.map (·.frame) = some [1, 0xC0, 1, 2, 0, 1, 0] := by decide +kernel

/-- R180, R182: a suspended stream has no deadline. -/
theorem test_suspend_stops_the_deadline :
    let s := asked { busy with stream := { Stream.initial with state := .opened, idleDeadline := some { setAt := 0, duration := 30000 } } }
      .streamUnit .streamSuspend []
    (after (exec .streamSuspend s)).stream.idleDeadline = none := by decide +kernel

/-- R184: the sweep deletes a row of another generation and moves on. -/
theorem test_sweep_deletes :
    let s := { busy with stream := { Stream.initial with state := .sweeping, generation := 2, sweepCursor := slot } }
    let t := after (exec .sweepStep s)
    t.table.slots = [] ∧ t.stream.sweepCursor = slot + 1 ∧ t.stream.sweepDeleted = 1 := by decide +kernel

/-- R6: after a grant to a lane the trunk owners are served, then the next lane at or after the pointer. -/
theorem test_groups_alternate :
    let s := asked { busy with lanes := (busy.lanes.set 0 { lane0 with rowOps := [.closing 0 1] }).set 5 { lane0 with rowOps := [.closing 0 1] } }
      .passTable .passRead (uidBytes pass)
    s.nextGrant = some .trunkOwners
      ∧ { s with arbiter := { pointer := 1, lastGroup := .trunkAndStream, lastTrunkRequester := .trunkOwners } }.nextGrant
        = some (.lane 5) := by decide +kernel


/-! ### States that meet the hypotheses of the statements: the part as a whole -/

theorem witness_StepRunsFront :
    { busy with pending := [.countAdvance, .transmitFrame] }.pending = .countAdvance :: [.transmitFrame] := rfl

theorem witness_IdleStepIsOneMillisecond : busy.pending = [] ∧ busy.resetLine.remaining = 10 := by decide +kernel

theorem witness_CommandsAnswer : ¬ busy.stands .stationReset ∧ ¬ busy.stands .memoryClearDone :=
  ⟨fun h => h rfl, fun h => nomatch (h : PartStatus.ready = .starting)⟩

theorem witness_BlocksKept : ∃ t, exec .countAdvance busy = .next t ∧ Part.table ∉ Part.writtenBy .countAdvance :=
  ⟨_, next_of_answers (by decide +kernel), by decide⟩

theorem witness_OtherLanesAndLiftsKept :
    ∃ t, exec (.rotation 0 true) busy = .next t ∧ mayWriteLane (.rotation 0 true) 1 = false
      ∧ mayWriteLift (.rotation 0 true) 0 = false := ⟨_, next_of_answers (by decide +kernel), rfl, rfl⟩

/-- Lane 0 with an unlocked admission of the pass, its one tap granted. -/
def admittingLane : Lane :=
  { lane0 with
    admission := some (admitted (some .unlocked) 1), unlock := true, latchReleased := true
    counters := { LaneCounters.zero with taps := 1, grants := 1 } }

/-- Lift 0 with a place reserved for that admission. -/
def admittingLift : Lift := { lift0 with reservations := [{ lane := 0, request := 1 }] }

/-- A part whose lane 0 holds an unlocked admission of the row that is pending there, its place reserved. -/
def admitting : State :=
  { withRow fun r => { r with pendingLane := some 0 } with
    lanes := busy.lanes.set 0 admittingLane
    lifts := busy.lifts.set 0 admittingLift
    products := ((Vector.replicate 256 Product.undefinedRecord).set 17 product17).set 9 product9 }

theorem admitting_lane : ∀ l : LaneNo, admitting.lane l = if l = 0 then admittingLane else Lane.powerOn false false false := by decide +kernel

theorem admitting_lift : ∀ i : LiftNo, admitting.lift i = if i = 0 then admittingLift else Lift.powerOn .closedSchedule false := by decide +kernel

theorem witness_step_of_admitting : ∃ t, step admitting = .next t := ⟨_, next_of_answers (by decide +kernel)⟩

theorem witness_TableLaw : admitting.TableLaw :=
  ⟨by decide +kernel, by decide +kernel, by decide +kernel, by decide +kernel⟩

theorem witness_CountLaw : admitting.CountLaw := ⟨by decide +kernel, by decide +kernel⟩

theorem witness_ListLaw : admitting.ListLaw := by
  refine ⟨fun e h => ?_, fun d h => ?_, fun l k uid head lift stamp d h => ?_⟩
  · obtain rfl : e = (slot, { row17 with pendingLane := some 0 }) := List.mem_singleton.mp h
    exact (by decide +kernel : true = true ∧ ascending [41, 42] = true ∧ [41, 42].length ≤ 5 ∧ ∀ d ∈ [41, 42], d ≤ 239)
  · obtain rfl : 43 = d := Option.some.inj h
    decide
  · rw [(by decide +kernel : ∀ l : LaneNo, (admitting.lane l).rowOps = []) l] at h
    cases h

theorem witness_RefundLaw : retired.RefundLaw := by
  intro e h f hf
  obtain rfl := List.mem_singleton.mp h
  obtain rfl := Option.some.inj hf
  exact ⟨rfl, Nat.le_refl _⟩

theorem witness_step_of_retired : ∃ t, step retired = .next t := ⟨_, next_of_answers (by decide +kernel)⟩

theorem witness_ProductLaw : admitting.ProductLaw := by
  intro c
  by_cases h9 : c = 9
  · subst h9
    exact fun _ => (by decide +kernel : (0 = 0 ∧ false = false) ∧ 30 ≤ 90 ∧ 90 ≤ 239 ∧ 60 ≤ 3600 ∧ 7 ≤ 30 ∧ 8900 ≤ 99999
      ∧ 7600 ≤ 99999 ∧ 5800 ≤ 99999 ∧ 1500 ≤ 99999)
  by_cases h17 : c = 17
  · subst h17
    exact fun _ => (by decide +kernel : (1 ≤ 5 ∧ 5 ≤ 14) ∧ 30 ≤ 90 ∧ 90 ≤ 239 ∧ 60 ≤ 3600 ∧ 7 ≤ 30 ∧ 8900 ≤ 99999
      ∧ 7600 ≤ 99999 ∧ 5800 ≤ 99999 ∧ 1500 ≤ 99999)
  · intro h
    have : ∀ c : ProductCode, c ≠ 9 → c ≠ 17 → (admitting.product c).isDefined = false := by decide +kernel
    rw [this c h9 h17] at h
    cases h

theorem witness_CalendarLaw : admitting.calendar.Law := by
  refine ⟨by decide +kernel, ?_, ?_, ?_, ?_⟩
  · intro d h; obtain rfl : 43 = d := Option.some.inj h; decide +kernel
  · intro d h; exact (by decide +kernel : ∀ d < 240,
      (admitting.calendar.currentDay.all fun n => decide (n < d)) = true → (admitting.calendar.day d).state = .ahead) d (by omega)
  · intro d h; exact (by decide +kernel : ∀ d < 240, (admitting.calendar.day d).operatingMinutes ≤ 1440
      ∧ (admitting.calendar.day d).closedLiftMinutes ≤ 5760 ∧ (admitting.calendar.day d).creditPercent ≤ 100) d (by omega)
  · intro d h; exact (by decide +kernel : ∀ d < 240, (admitting.calendar.day d).state = .ahead →
      (admitting.calendar.day d).closedLiftMinutes = 0) d (by omega)

/-- A lane that holds no admission keeps its law when the rest of it does. -/
theorem lawOfIdleLane (x : Lane) (none : x.admission = none) (mapping : x.secondaryLift ≠ some x.primaryLift)
    (served : x.servedLift = x.derivedLift) (state : x.effective = x.derived) (unlock : x.unlock = decide (x.effective = .overrideFree))
    (drive : x.driveWindow = .none) (watch : x.releaseWatch = .none) (held : x.latchReleased = false)
    (detached : x.presence.debounced = false → x.actuationFail = false ∧ x.stuckOpen = false ∧ x.keyPosition = .normal)
    (waiting : x.waitingTap = .none) : x.Law :=
  { mapping := mapping, served := served, state := state
    admitted := by simp [none]
    phase := by simp [none]
    unlock := by simp [none, unlock]
    drive := by simp [drive]
    watch := by simp [watch, held]
    detached := detached
    waiting := by simp [waiting] }

theorem witness_LaneLaw : admitting.LaneLaw := by
  intro l
  rw [admitting_lane l]
  split
  · refine ⟨by decide, by decide, by decide, ?_, ?_, ?_, by decide, by decide, by decide, by decide⟩
    · intro a h; obtain rfl := Option.some.inj h; decide
    · intro a h; obtain rfl := Option.some.inj h; decide
    · exact ⟨fun _ => .inl ⟨_, rfl, rfl⟩, fun _ => rfl⟩
  · exact lawOfIdleLane _ rfl (by decide) (by decide) (by decide) (by decide) rfl rfl rfl (by decide) rfl

theorem witness_CounterLaw : admitting.CounterLaw := by
  intro l
  rw [admitting_lane l]
  have denied : ∀ reason : DenyReason, LaneCounters.zero.denials[reason.index] ≤ 65535 := by intro reason; cases reason <;> decide
  split <;> exact ⟨by decide, by decide, denied, by decide, by decide, by decide, by decide⟩

theorem witness_GrantLaw : admitting.GrantLaw := by
  have idle : ∀ l : LaneNo, (admitting.lane l).resetsPending = 0 ∧ (admitting.lane l).rowOps = [] := by decide +kernel
  refine ⟨fun l k uid => ?_, fun l before after op h => ?_, fun l _ => (idle l).2⟩
  · have rows : slotAt admitting.table.slots k = if k = slot then some { row17 with pendingLane := some 0 } else none := by
      simp [slotAt, admitting, withRow, eq_comm]
    rw [(idle l).1, Lane.claims, (idle l).2, rows, admitting_lane l]
    by_cases hl : l = 0 <;> by_cases hk : k = slot <;> simp [hl, hk, admittingLane, admitted, row17, eq_comm, Lane.powerOn]
  · rw [(idle l).2] at h; simp at h

theorem witness_LiftLaw : admitting.LiftLaw := by
  intro i
  rw [admitting_lift i]
  split <;> exact ⟨by decide, by decide, by decide, by decide, by decide, by decide⟩

theorem witness_PlaceLaw : admitting.PlaceLaw := by
  have still : ∀ (l : LaneNo) (i : LiftNo), ¬ (admitting.lift i).resetsPending < (admitting.lane l).resetsPending := by decide +kernel
  refine ⟨fun l i n _ => ?_, fun l i h => absurd h (still l i)⟩
  rw [admitting_lift i]
  split
  · next h =>
    subst h
    by_cases here : l = 0 ∧ n = 1
    · obtain ⟨rfl, rfl⟩ := here; decide +kernel
    · have other : ({ lane := 0, request := 1 } : Reservation) ≠ { lane := l, request := n } := fun h => by cases h; exact here ⟨rfl, rfl⟩
      exact (List.count_eq_zero.mpr fun h => other (List.mem_singleton.mp h).symm).trans_le (Nat.zero_le _)
  · simp [Lift.powerOn]

theorem witness_JournalLaw : wrapped.Law := by
  refine ⟨by decide +kernel, by decide +kernel, ?_, ?_, ?_, by decide +kernel⟩
  · simp only [wrapped, List.map, consecutive]; decide +kernel
  · intro q h; obtain rfl : 1 = q := Option.some.inj h; decide +kernel
  · intro q h; obtain rfl : 2 = q := Option.some.inj h; decide +kernel

theorem witness_step_of_wrapped : ∃ t, step { busy with journal := wrapped } = .next t :=
  ⟨_, next_of_answers (by decide +kernel)⟩

theorem witness_TrunkLaw :
    State.reset.trunk.Law ∧ ∃ t, step State.reset = .next t :=
  ⟨⟨by decide +kernel, by decide +kernel, by decide +kernel, by decide +kernel⟩, _, next_of_answers (by decide +kernel)⟩

/-- The part with product 17 alone protected in LOCKED. -/
def locked17 : State := { busy with protection := { mode := .locked, low := 17, high := 17, sense := .inside } }

theorem witness_LockedProtectionHolds :
    locked17.protection.mode = .locked ∧ locked17.protection.covers 17 = true ∧ locked17.protection.covers 18 = false
      ∧ (∃ t, exec .countAdvance locked17 = .next t)
      ∧ ∃ t, exec .protectionDayOpen { locked17 with calendar := { calendar43 with toProductTable := 1 } } = .next t :=
  ⟨rfl, by decide +kernel, by decide +kernel, ⟨_, next_of_answers (by decide +kernel)⟩, _, next_of_answers (by decide +kernel)⟩

/-- Lane 0 with a validation of the pass handed to the table port. -/
def validating : State := withLane fun x => { x with rowOps := [.validate pass], validationInFlight := true }

theorem witness_AdmissionsBeginAtGrants :
    ∃ t a, exec (.validation 0) validating = .next t ∧ (validating.lane 0).admission = none ∧ (t.lane 0).admission = some a :=
  ⟨_, (admitted none 0), next_of_answers (by decide +kernel), by decide +kernel, by decide +kernel⟩

theorem witness_ReplyFillsPlace :
    (asked busy .calendar .time []).trunk.place 0 = some (placeFor .time 1) ∧ (placeFor .time 1).awaiting = 1
      ∧ ([] : List Byte).length ≤ RequestKind.time.replyLength
      ∧ (statusBytes busy).length = RequestKind.status.replyLength
      ∧ { placeFor .config 1 with changed := true }.flagged = false
      ∧ (let s := { busy with trunk := { busy.trunk with reserved := [placeFor .config 2] } };
        s.trunk.place 0 = some (placeFor .config 2) ∧ 2 ≤ (placeFor .config 2).awaiting) := by decide +kernel

theorem witness_Rederivation :
    lane0.derived = lane0.effective
      ∧ (let x := { lane0 with configuredMode := .locked }; x.derived ≠ x.effective ∧ x.admission = none)
      ∧ (let x := { Lane.powerOn true false false with presence := { line := true, debounced := true, remaining := none } }
        x.derived ≠ x.effective ∧ x.effective ≠ .inService)
      ∧ (∀ phase ∈ [none, some Phase.hold, some .unlocked],
          let x := { lane0 with configuredMode := .locked, admission := some (admitted phase 0) }
          x.derived ≠ x.effective ∧ x.effective = .inService ∧ x.admission = some (admitted phase 0) ∧ x.resetsPending = 0
            ∧ (busy.laneEnv 0).discards[(admitted phase 0).lift] = false) := by decide +kernel

/-- Every state the conditions of R53 decide. -/
theorem witness_Rederivation_conditions :
    [{ lane0 with presence := { lane0.presence with debounced := false } }, { lane0 with stuckOpen := true },
      { lane0 with keyPosition := .free }, { lane0 with keyPosition := .shut }, { lane0 with configuredMode := .locked },
      { lane0 with dayOpen := false }, { lane0 with servedLift := none }, lane0].map Lane.derived
      = [.detached, .faulted, .overrideFree, .overrideShut, .locked, .dayClosed, .noLift, .inService] := by decide +kernel

theorem witness_PowerOnClearsTable :
    State.reset.trunk.partStatus = .starting ∧ ∃ t, exec .memoryClearDone State.reset = .next t :=
  ⟨rfl, _, next_of_answers (by decide +kernel)⟩

/-- Waiting requesters of the table port: lanes 3 and 11 as they are asked for, a PASS_READ, a chunk row, and a sweep. -/
def waiting (lanes asks chunk : Bool) (arbiter : Arbiter) : State :=
  let op (x : Lane) : Lane := { x with rowOps := [.closing 0 1] }
  { busy with
    lanes := if lanes then (busy.lanes.set 3 (op lane0)).set 11 (op lane0) else busy.lanes
    routed := if asks then [request .productTable .productRead [17], request .passTable .passRead (uidBytes pass)] else []
    stream := { Stream.initial with
      state := .sweeping
      chunk := if chunk then some { place := none, number := 0, rows := [[]], position := 0, refusedRows := [] } else none }
    arbiter := arbiter }

/-- Lane 3 is first from the pointer at 0 and at 3, lane 11 from 4 and from 11, and lane 3 again round the wrap. -/
theorem witness_PowerOnClearsTable_lanes :
    (∀ r c, (waiting true r c Arbiter.initial).trunk.partStatus = .ready ∧ ((waiting true r c Arbiter.initial).lane 3).rowOps ≠ []
        ∧ ((waiting true r c Arbiter.initial).lane 11).rowOps ≠ [])
      ∧ (∀ l : LaneNo, l ≠ 3 → l ≠ 11 → ((waiting true true true Arbiter.initial).lane l).rowOps = [])
      ∧ (∀ p ∈ [(0, 3, 3), (3, 3, 0), (4, 11, 7), (11, 11, 0)], p.2.1 = (p.1 + p.2.2) % 12 ∧ p.2.2 < 12)
      ∧ { Arbiter.initial with pointer := 4, lastGroup := .trunkAndStream }.lastGroup = .trunkAndStream := by decide +kernel

theorem witness_PowerOnClearsTable_trunk :
    (∀ r c, ∀ l : LaneNo, ((waiting false r c Arbiter.initial).lane l).rowOps = [])
      ∧ (∀ c, presentedIn (waiting true true c Arbiter.initial).routed [] = some (request .passTable .passRead (uidBytes pass))
        ∧ presentedIn (waiting true false c Arbiter.initial).routed [] = none)
      ∧ (waiting true true true Arbiter.initial).stream.chunk ≠ none ∧ (waiting true true false Arbiter.initial).stream.chunk = none
      ∧ Arbiter.initial.lastGroup = .lanes ∧ Arbiter.initial.lastTrunkRequester = .trunkOwners
      ∧ (waiting false false false Arbiter.initial).stream.state = .sweeping
      ∧ (request .productTable .productRead [17]).usesPort = false
      ∧ (request .productTable .productPut []).usesPort = true
      ∧ (request .productTable .productRead [17]).owner = (request .productTable .productPut []).owner := by decide +kernel

theorem witness_StationResetTaken :
    (∀ who ∈ [some (0x1234 : Tag), none], ∃ rest, { busy.trunk with restarts := [who] }.restarts = who :: rest)
      ∧ ((withLane fun x => { x with resetsPending := 1 }).lane 0).resetsPending ≠ 0
      ∧ ((withLift fun x => { x with resetsPending := 1 }).lift 0).resetsPending ≠ 0 :=
  ⟨fun _ _ => ⟨[], rfl⟩, by decide +kernel, by decide +kernel⟩

theorem witness_RestartsAreAsked :
    (let r := request .trunkPort .restart []
      let s := asked busy .trunkPort .restart []
      s.Routes .trunkPort .restart r ∧ r.place = some 0 ∧ s.trunk.place 0 = some (placeFor .restart 1))
      ∧ (let s := { busy with resetLine := { asserted := true, remaining := 0, armed := true } }
        s.resetLine.asserted = true ∧ s.resetLine.armed = true ∧ s.resetLine.remaining = 0)
      ∧ busy.resetLine.asserted = false := by decide +kernel

/-! ### The trunk port -/

theorem witness_FramesReceived :
    (RequestKind.time.bodyLength [0, 0, 0, 9] ≤ [(0 : Byte), 0, 0, 9].length)
      ∧ [(1 : Byte), 0x12, 0, 0, 0].length < 6
      ∧ [(2 : Byte), 0x40, 0, 0, 0, 0].head? ≠ some 1
      ∧ RequestKind.ofByte 0x12 = some .time ∧ [(0 : Byte), 0, 0].length < RequestKind.time.bodyLength [0, 0, 0]
      ∧ List.length ([] : List Byte) < 1 ∧ (List.replicate 65534 (0 : Byte)).length < 65535
      ∧ RequestKind.ofByte 0x7F = none
      ∧ RequestKind.streamData.bodyLength ([0, 0, 16] ++ List.replicate 576 0) = 579
      ∧ RequestKind.streamData.bodyLength [0, 0, 17] = 3 := by decide +kernel

/-- A request received, the part READY but for `starting`, with the reply places as many as given. -/
def received (starting : Bool) (places : Nat) (kind : Byte) (body : List Byte) : State :=
  { busy with trunk :=
      { busy.trunk with
        partStatus := if starting then .starting else .ready
        rxQueue := [{ kind := kind, tag := 7, body := body }]
        filled := List.replicate places { kind := 0xC0, tag := 0, body := [0] } } }

theorem witness_RequestsRouted :
    (received false 15 0x7F []).trunk.placesUsed < 16 ∧ RequestKind.ofByte 0x7F = none
      ∧ (received true 0 0x12 [0, 0, 0, 9]).trunk.partStatus = .starting ∧ RequestKind.ofByte 0x12 = some .time
      ∧ RequestKind.ofByte 0x40 = some .status
      ∧ (received false 15 0x18 [12]).trunk.partStatus = .ready
      ∧ (∀ n ∈ [12, 254], RequestKind.laneRelease.owners [n] matches .error .range)
      ∧ (RequestKind.laneRelease.owners [255] matches .ok (_ :: _))
      ∧ (RequestKind.laneRelease.owners [11] matches .ok [.lane 11])
      ∧ (∀ n ∈ [12, 254, 255], RequestKind.laneRead.owners [n] matches .error .range)
      ∧ (RequestKind.laneConfig.owners [0, 0, 0, 0] matches .ok [.lane 0])
      ∧ (RequestKind.liftRead.owners [3] matches .ok [.lift 3])
      ∧ (RequestKind.liftRead.owners [4] matches .error .range) := by decide +kernel

theorem witness_TransmitterChooses :
    State.reset.trunk.filled = [] ∧ State.reset.trunk.pendingNotices ≠ []
      ∧ (received false 2 0x40 []).trunk.filled ≠ []
      ∧ (let u := { busy.trunk with pendingNotices := [] }; u.filled = [] ∧ u.pendingNotices = [])
      ∧ (∃ r, wrapped.sendPosition = some 1 ∧ wrapped.recordAt 1 = some r)
      ∧ (∃ r, { wrapped with sendPosition := none }.sendPosition = none ∧ wrapped.replayCursor = some 2 ∧ wrapped.recordAt 2 = some r)
      ∧ busy.journal.sendPosition = none ∧ busy.journal.replayCursor = none
      ∧ wrapped.Law ∧ (∃ x, wrapped.ring = wrapped.ring.take 1 ++ x :: wrapped.ring.drop 2 ∧ x.sequence = 4294967295)
      ∧ ∃ x, wrapped.ring = wrapped.ring.take 3 ++ x :: [] ∧ x.sequence = 2 :=
  ⟨rfl, by decide, by decide +kernel, by decide, ⟨_, rfl, rfl⟩, ⟨_, rfl, rfl, rfl⟩, rfl, rfl, witness_JournalLaw, ⟨_, rfl, rfl⟩,
    _, rfl, rfl⟩

/-- Lane 0 with a LANE_FAULT raise handed on, the condition as given. -/
def raising (latched masked : Bool) (pending : List Raise) : State :=
  let s := withLane fun x => { x with raises := [{ condition := .laneFault, detail := .lane 0 }] }
  { s with trunk := { s.trunk.setCondition .laneFault { latched := latched, masked := masked, detail := .lane 3 } with
                      pendingNotices := pending } }

theorem witness_RaisesTaken :
    (raising false false []).raisesOf (.lane 0) = [{ condition := .laneFault, detail := .lane 0 }]
      ∧ ((raising true false []).trunk.condition .laneFault).latched = true
      ∧ ((raising false true []).trunk.condition .laneFault).masked = true
      ∧ (let s := raising false false [{ condition := .laneFault, detail := .lane 3 }]
        (s.trunk.condition .laneFault).latched = false ∧ (s.trunk.condition .laneFault).masked = false
          ∧ s.trunk.pendingNotices = [] ++ { condition := .laneFault, detail := .lane 3 } :: []) := by decide +kernel

theorem witness_MasksTaken :
    (∀ b ∈ [[(4 : Byte), 0], [3, 255], [0, 4], [0, 0]],
      (asked (raising true false []) .trunkPort .noticeMask b).Routes .trunkPort .noticeMask (request .trunkPort .noticeMask b))
      ∧ field [4, 0] 0 2 = 1024 ∧ field [3, 255] 0 2 = 1023
      ∧ (∀ i : Fin 10, (0 : Nat).testBit i.val = false)
      ∧ (busy.trunk.condition .laneFault).masked = false ∧ (4 : Nat).testBit Condition.laneFault.index.val = true
      ∧ ((raising true true []).trunk.condition .laneFault).latched = true
      ∧ ((raising true true []).trunk.condition .laneFault).masked = true := by decide +kernel

theorem witness_NoticesAcknowledged :
    (∀ b ∈ [[(10 : Byte)], [9], [2], [4]],
      (asked (raising true false []) .trunkPort .noticeAck b).Routes .trunkPort .noticeAck (request .trunkPort .noticeAck b))
      ∧ Condition.streamTimeout.index.val = 9 ∧ (busy.trunk.condition .streamTimeout).latched = false
      ∧ ((raising true false []).trunk.condition .laneFault).latched = true
      ∧ ((withLane fun x => { x with stuckOpen := true }).lane 0).stuckOpen = true
      ∧ (∀ l : LaneNo, ((raising true false []).lane l).actuationFail = false ∧ ((raising true false []).lane l).stuckOpen = false)
      ∧ { wrapped with lowMark := 3 }.lowMark < { wrapped with lowMark := 3 }.held
      ∧ { wrapped with lowMark := 4 }.held ≤ { wrapped with lowMark := 4 }.lowMark := by decide +kernel

/-- A CONFIG of window 30, timeout 61, payout 10000, threshold 1440 and marks 4080 and 4080. -/
def configBody : List Byte := [30, 61] ++ be 10000 2 ++ be 1440 2 ++ be 4080 2 ++ be 4080 2

theorem witness_ConfigTaken :
    (∀ o ∈ [Owner.trunkPort, .lane 0, .lane 11, .refundUnit, .calendar, .journal],
      (asked busy o .config configBody).Routes o .config (request o .config configBody))
      ∧ (asked busy .trunkPort .config configBody).trunk.place 0 = some (placeFor .config 1) := by decide +kernel

theorem witness_ReadsAnswer :
    (∀ x ∈ [(Owner.trunkPort, RequestKind.status, ([] : List Byte)), (.productTable, .productRead, [255]),
        (.calendar, .calendarRead, [239]), (.calendar, .calendarRead, [240]), (.lane 11, .laneRead, [11]), (.lift 3, .liftRead, [3]),
        (.journal, .journalRead, [255]), (.journal, .journalRead, [3]), (.journal, .journalRead, [4]), (.journal, .journalRead, [254])],
      (asked busy x.1 x.2.1 x.2.2).Routes x.1 x.2.1 (request x.1 x.2.1 x.2.2))
      ∧ (asked busy .passTable .passRead (uidBytes 0)).Presents .passRead (request .passTable .passRead (uidBytes 0))
      ∧ (asked busy .passTable .passRead (uidBytes 1)).Presents .passRead (request .passTable .passRead (uidBytes 1))
      ∧ (asked busy .passTable .passRead (uidBytes pass)).Presents .passRead (request .passTable .passRead (uidBytes pass))
      ∧ State.reset.calendar.currentDay = none ∧ (busy.calendar.currentDay = some 43 ∧ 43 ≤ 239)
      ∧ uidField (uidBytes 0) 0 = 0 ∧ lookup busy.table.slots (uidField (uidBytes 1) 0) = none
      ∧ lookup busy.table.slots (uidField (uidBytes pass) 0) = some (slot, row17) := by decide +kernel


/-! ### States that meet the hypotheses of the statements: passes and products -/

/-- The form of a PASS_PUT of the pass. -/
abbrev put (product status headcount : Byte) (days : List Byte) : PassForm := passForm (putBody product status headcount days)

/-- The part with the pass's row a SEASON row that has counted 10 days, the last of them day 42. -/
def season : State :=
  withRow fun r => { r with product := 9, consumed := [], seasonDays := 10, lastCountedDay := some 42, expiryDay := some 43 }

theorem witness_PassPutInserts :
    let b := putBody 17 0 30 [0, 43]
    let s := { busy with table := PassTable.powerOn }
    let f := passForm b
    (asked s .passTable .passPut b).Presents .passPut (request .passTable .passPut b) ∧ passStatusOf f.statusCode = some .active
      ∧ f.refusal (s.product f.product) s.calendar.currentDay = none ∧ lookup s.table.slots f.uid = none
      ∧ freeSlotFor s.table.slots f.uid = some slot := by decide +kernel

theorem witness_PassPutUpdates :
    (let b := putBody 17 1 2 [20, 21, 22, 23];
      (asked busy .passTable .passPut b).Presents .passPut (request .passTable .passPut b))
      ∧ lookup busy.table.slots (put 17 1 2 []).uid = some (slot, row17) ∧ row17.refund = none
      ∧ lookup retired.table.slots (put 17 1 2 []).uid =
        some (slot, { row17 with status := .retired, refund := some { paidPerHead := 19312, balancePerHead := 19312, retireDay := 43 } })
      ∧ passStatusOf (put 17 1 2 []).statusCode = some .blocked ∧ passStatusOf (put 17 2 2 []).statusCode = some .retired
      ∧ (put 17 1 2 [20, 21, 22, 23]).refusal product17 (some 43) = none
      ∧ (busy.product 17).dayCount < (unionDays row17.consumed (put 17 1 2 [20, 21, 22, 23]).consumed).length
      ∧ (put 17 1 2 [20, 21, 22]).refusal product17 (some 43) = none
      ∧ (unionDays row17.consumed (put 17 1 2 [20, 21, 22]).consumed).length = (busy.product 17).dayCount := by decide +kernel

/-- The other kinds an update meets: two SEASON products, and a MULTI_DAY row given a SEASON product. -/
theorem witness_PassPutUpdates_kinds :
    (busy.product 17).kind = .multiDay ∧ (busy.product 9).kind = .season
      ∧ (put 9 0 2 []).refusal product9 (some 43) = none
      ∧ (∃ old, lookup season.table.slots (put 9 0 2 []).uid = some (slot, old) ∧ old.product = 9)
      ∧ ascending row17.consumed = true :=
  ⟨by decide +kernel, by decide +kernel, by decide +kernel, ⟨_, rfl, rfl⟩, by decide +kernel⟩

theorem witness_PassPutRefused_fields :
    (let b := putBody 17 3 2 [41];
      (asked busy .passTable .passPut b).Presents .passPut (request .passTable .passPut b))
      ∧ (passForm (List.replicate 8 0 ++ (putBody 17 0 2 [41]).drop 8)).uid = 0
      ∧ passStatusOf (put 17 3 2 [41]).statusCode = none ∧ (put 17 0 0 [41]).headcount < 1 ∧ 30 < (put 17 0 31 [41]).headcount
      ∧ 999999 < (passForm ((putBody 17 0 2 [41]).set 15 15)).price
      ∧ 1 < (passForm ((putBody 17 0 2 [41]).set 11 2)).expiry.presence
      ∧ (let f := passForm (((putBody 17 0 2 [41]).set 11 1).set 12 240); f.expiry.presence = 1 ∧ 239 < f.expiry.value)
      ∧ 240 < (passForm ((putBody 17 0 2 [41]).set 18 241)).seasonDays
      ∧ 1 < (passForm ((putBody 17 0 2 [41]).set 19 2)).lastCounted.presence
      ∧ (let f := passForm (((putBody 17 0 2 [41]).set 19 1).set 20 240); f.lastCounted.presence = 1 ∧ 239 < f.lastCounted.value)
      ∧ 14 < (passForm ((putBody 17 0 2 [41]).set 21 15)).listLength
      ∧ (∃ d ∈ (put 17 0 2 [240]).consumed, 239 < d) ∧ ascending (put 17 0 2 [41, 41]).consumed = false := by decide +kernel

theorem witness_PassPutRefused_product :
    (put 18 0 30 [43]).fieldsOk = true ∧ (busy.product 18).isDefined = false
      ∧ ({ product17 with groupAllowed := false }.groupAllowed = false ∧ 1 < (put 17 0 2 []).headcount)
      ∧ ((put 9 0 2 [41]).fieldsOk = true ∧ product9.kind = .season ∧ (put 9 0 2 [41]).consumed ≠ [])
      ∧ (let f := passForm ((putBody 17 0 2 []).set 18 1); f.fieldsOk = true ∧ product17.kind = .multiDay ∧ f.seasonDays ≠ 0)
      ∧ (let f := put 17 0 2 [1, 2, 3, 4, 5, 6]; f.fieldsOk = true ∧ f.fitsProduct product17 = true
        ∧ product17.dayCount < f.consumed.length)
      ∧ (let f := put 17 0 2 [1, 2, 3, 4, 44]; f.fieldsOk = true ∧ f.fitsProduct product17 = true
        ∧ f.consumed.length ≤ product17.dayCount ∧ ∃ d ∈ f.consumed, 43 < d)
      ∧ busy.calendar.currentDay = some 43 := by decide +kernel

/-- The part with the pass's bucket full of other passes of product 17. -/
def full : State :=
  { busy with table := { busy.table with slots := (List.range 8).map fun k =>
      (slot + k, { row17 with uid := pass ^^^ BitVec.ofNat 64 ((k + 1) * 65537) }) } }

theorem witness_PassPutRefused_bucket :
    (let b := putBody 17 0 2 [43];
      (asked full .passTable .passPut b).Presents .passPut (request .passTable .passPut b))
      ∧ (∀ d ∈ (put 17 0 2 [43]).consumed, d ≤ 43) ∧ (put 17 0 2 [43]).lastCounted.get = none
      ∧ lookup full.table.slots (put 17 0 2 [43]).uid = none
      ∧ (∀ k < 8, slotAt full.table.slots (8 * bucketOf pass + k) ≠ none) := by decide +kernel

theorem witness_PassStatusSet :
    (∀ b ∈ [uidBytes pass ++ [3], uidBytes pass ++ [0], uidBytes 1 ++ [2], uidBytes pass ++ [1]],
      (asked retired .passTable .passSetStatus b).Presents .passSetStatus (request .passTable .passSetStatus b))
      ∧ 2 < field (uidBytes pass ++ [3]) 8 1 ∧ uidField (uidBytes pass ++ [3]) 0 = pass
      ∧ lookup retired.table.slots 1 = none
      ∧ passStatusOf 0 = some .active
      ∧ (∃ row, lookup retired.table.slots pass = some (slot, row) ∧ row.refund ≠ none ∧ row.status = .retired)
      ∧ (∃ row, lookup admitting.table.slots pass = some (slot, row) ∧ row.refund = none ∧ row.pendingLane = some 0
        ∧ PassStatus.blocked ≠ row.status) :=
  ⟨by decide +kernel, by decide +kernel, by decide +kernel, by decide +kernel, by decide +kernel, ⟨_, rfl, by decide, rfl⟩,
    ⟨_, rfl, rfl, rfl, by decide⟩⟩

/-- The worked UID, held in the table of a state that keeps the table's law, and one not held. -/
theorem witness_PassDeleted_lookup :
    admitting.TableLaw ∧ (∃ row, lookup admitting.table.slots pass = some (slot, row))
      ∧ (∃ row, slotAt admitting.table.slots slot = some row ∧ row.uid = pass) ∧ lookup admitting.table.slots 1 = none :=
  ⟨witness_TableLaw, ⟨_, rfl⟩, ⟨_, rfl, rfl⟩, by decide +kernel⟩

theorem witness_PassDeleted :
    (∀ b ∈ [uidBytes 0, uidBytes 1, uidBytes pass],
      (asked admitting .passTable .passDelete b).Presents .passDelete (request .passTable .passDelete b))
      ∧ uidField (uidBytes 0) 0 = 0 ∧ lookup admitting.table.slots (uidField (uidBytes 1) 0) = none
      ∧ (∃ row, lookup admitting.table.slots (uidField (uidBytes pass) 0) = some (slot, row) ∧ row.pendingLane ≠ none)
      ∧ (∃ row, lookup busy.table.slots (uidField (uidBytes pass) 0) = some (slot, row) ∧ row.pendingLane = none) :=
  ⟨by decide +kernel, by decide +kernel, by decide +kernel, ⟨_, rfl, by decide⟩, ⟨_, rfl, rfl⟩⟩

theorem witness_UsageMerged :
    (∀ b ∈ [uidBytes 0 ++ [43], uidBytes pass ++ [240], uidBytes pass ++ [44], uidBytes pass ++ [43]],
      (asked busy .passTable .usageMerge b).Presents .usageMerge (request .passTable .usageMerge b))
      ∧ field (uidBytes pass ++ [240]) 8 1 = 240 ∧ lookup busy.table.slots pass = some (slot, row17)
      ∧ busy.calendar.currentDay = some 43 ∧ (busy.product 17).isDefined = true ∧ (busy.product 17).kind = .multiDay
      ∧ (42 ∈ row17.consumed) ∧ (43 ∉ row17.consumed) ∧ row17.consumed.length < (busy.product 17).dayCount ∧ row17.refund = none
      ∧ (let r := { row17 with consumed := [1, 2, 3, 4, 5] }; 43 ∉ r.consumed ∧ (busy.product 17).dayCount ≤ r.consumed.length)
      ∧ (withRow fun r => { r with product := 18 }).product 18 = Product.undefinedRecord := by decide +kernel

/-- A SEASON row merged with the day it last counted and with the next; a refund paid too much, and one that was not. -/
theorem witness_UsageMerged_figures :
    (∃ row, lookup season.table.slots pass = some (slot, row) ∧ (season.product row.product).kind = .season
        ∧ row.lastCountedDay = some 42 ∧ 42 ≤ 42 ∧ 42 < 43)
      ∧ (∃ row f, lookup retired.table.slots pass = some (slot, row) ∧ row.refund = some f
        ∧ (retired.figures product17 row (insertDay 43 row.consumed)).net < f.balancePerHead)
      ∧ (∃ row f, lookup retired.table.slots pass = some (slot, row) ∧ row.refund = some f
        ∧ { f with balancePerHead := 13512 }.balancePerHead ≤ (retired.figures product17 row (insertDay 43 row.consumed)).net)
      ∧ retired.journal.held < 4096 :=
  ⟨⟨_, rfl, by decide +kernel⟩, ⟨_, _, rfl, rfl, by decide +kernel⟩, ⟨_, _, rfl, rfl, by decide +kernel⟩, by decide +kernel⟩

/-- The body of a PRODUCT_PUT: code, kind, day count, the last valid day and whether it is refundable; else as product 17. -/
def productBody (code kind dayCount validTo refundable : Byte) : List Byte :=
  [code, kind, dayCount, 30, validTo] ++ be 0x21 8 ++ be 60 2 ++ [1, refundable, 7] ++ be 8900 4 ++ be 7600 4 ++ be 5800 4 ++ be 1500 4

theorem witness_ProductsWritten :
    (∀ b ∈ [productBody 17 2 5 90 1, productBody 17 0 15 90 1, productBody 17 1 0 90 0, productBody 17 0 4 90 1,
        productBody 17 0 5 239 1, productBody 255 1 0 239 0],
      (asked busy .productTable .productPut b).Presents .productPut (request .productTable .productPut b)
        ∧ busy.protectionRefusal (productForm b).code = none)
      ∧ 1 < (productForm (productBody 17 2 5 90 1)).kindCode ∧ 14 < (productForm (productBody 17 0 15 90 1)).dayCount
      ∧ (productForm (productBody 17 1 0 90 1)).refundable = 1
      ∧ (productForm (productBody 17 0 5 29 1)).validTo < (productForm (productBody 17 0 5 29 1)).validFrom
      ∧ (productForm (productBody 17 1 0 90 0)).fieldsOk .season = true ∧ ProductKind.season ≠ (busy.product 17).kind
      ∧ (productForm (productBody 17 0 4 90 1)).fieldsOk .multiDay = true
      ∧ (productForm (productBody 17 0 4 90 1)).dayCount < (busy.product 17).dayCount
      ∧ (productForm (productBody 17 0 5 239 1)).fieldsOk .multiDay = true
      ∧ (productForm (productBody 255 1 0 239 0)).fieldsOk .season = true ∧ (busy.product 255).isDefined = false := by decide +kernel

theorem witness_ProductsCleared :
    (∀ b ∈ [[(17 : Byte)], [9], [255]],
      (asked busy .productTable .productClear b).Presents .productClear (request .productTable .productClear b)
        ∧ busy.protectionRefusal (byteField b 0) = none)
      ∧ 0 < (busy.product 17).rowCount ∧ ((busy.product 9).rowCount = 0 ∧ (busy.product 9).isDefined = true)
      ∧ ((busy.product 255).rowCount = 0 ∧ (busy.product 255).isDefined = false) := by decide +kernel

theorem witness_ProtectionGates :
    (∀ s ∈ [locked17, { locked17 with protection := { locked17.protection with mode := .keyed } }],
      (asked s .productTable .productPut (productBody 17 0 5 90 1)).Presents .productPut
          (request .productTable .productPut (productBody 17 0 5 90 1))
        ∧ (asked s .productTable .productClear [17]).Presents .productClear (request .productTable .productClear [17]))
      ∧ ([9, 10, 19, 20].map fun n => Protection.covers { mode := .locked, low := 10, high := 19, sense := .inside } n)
        = [false, true, true, false]
      ∧ ([9, 10, 19, 20].map fun n => Protection.covers { mode := .locked, low := 10, high := 19, sense := .outside } n)
        = [true, false, false, true]
      ∧ locked17.protection.covers 17 = true ∧ locked17.protection.covers 16 = false ∧ locked17.serviceKey.debounced = false
      ∧ (productForm (productBody 17 0 5 90 1)).code = 17 ∧ byteField [17] 0 = 17 := by decide +kernel

theorem witness_ProtectionSet :
    (∀ b ∈ [[(3 : Byte), 0, 0, 0], [2, 0, 0, 0], [0, 0, 0, 2], [1, 5, 4, 0], [1, 5, 5, 1]],
      (asked busy .productTable .protectSet b).Routes .productTable .protectSet (request .productTable .protectSet b))
      ∧ protectionModeOf 2 = some .locked ∧ protectionModeOf 1 = some .keyed ∧ windowSenseOf 1 = some .outside
      ∧ locked17.protection.mode = .locked ∧ busy.protection.mode = .unprotected
      ∧ true ≠ busy.serviceKey.line
      ∧ { busy with serviceKey := { line := true, debounced := false, remaining := some 0 } }.serviceKey.remaining = some 0
      ∧ { locked17 with calendar := { calendar43 with toProductTable := 1 } }.calendar.toProductTable ≠ 0 := by decide +kernel

/-! ### Calendar and clock -/

theorem witness_DaysOpenAndClose :
    (∀ b ∈ [[(240 : Byte)], [44], [43], [239]],
      (asked busy .calendar .dayOpen b).Routes .calendar .dayOpen (request .calendar .dayOpen b))
      ∧ (asked busy .calendar .dayClose []).Routes .calendar .dayClose (request .calendar .dayClose [])
      ∧ busy.calendar.currentDay = some 43 ∧ (busy.calendar.day 43).state = .opened ∧ (busy.calendar.day 43).source = .computed
      ∧ (let c := Calendar.setDay calendar43 43 { DayRecord.powerOn with state := .closed }
        c.currentDay = some 43 ∧ (c.day 43).state ≠ .opened ∧ 43 ≤ 43 ∧ 43 < 44)
      ∧ Calendar.powerOn.currentDay = none
      ∧ { calendar43 with toLanes := calendar43.toLanes.set 0 [.opened] }.toLanes[0] = .opened :: []
      ∧ { calendar43 with toLanes := calendar43.toLanes.set 0 [.closed] }.toLanes[0] = .closed :: []
      ∧ { calendar43 with toJournal := 1 }.toJournal ≠ 0
      ∧ (busy.calendar.day 42).source ≠ .computed
      ∧ (let s := { busy with calendar := calendar43.setDay 43 { DayRecord.powerOn with closedLiftMinutes := 60 } };
        (s.calendar.day 43).source = .computed ∧ s.calendar.closureThreshold ≤ (s.calendar.day 43).closedLiftMinutes
          ∧ 0 < (s.calendar.day 43).operatingMinutes * liftNumbers.countP fun i => (s.lift i).enabled)
      ∧ (busy.calendar.day 43).closedLiftMinutes < busy.calendar.closureThreshold
      ∧ (liftNumbers.countP fun i => (ready.lift i).enabled) = 0 := by decide +kernel

theorem witness_ClockAndCalendarWritten :
    (∀ b ∈ [be 86400 4, be 86399 4], (asked busy .calendar .time b).Routes .calendar .time (request .calendar .time b))
      ∧ field (be 86400 4) 0 4 = 86400 ∧ field (be 86399 4) 0 4 = 86399
      ∧ (busy.calendar.secondOfDay + 1) % 60 ≠ 0
      ∧ { calendar43 with secondOfDay := 86399 }.secondOfDay = 86399 ∧ 0 % 60 = 0
      ∧ calendar43.subSecondPhase = 32768 ∧ { calendar43 with subSecondPhase := 32767 }.subSecondPhase < 32768
      ∧ busy.calendar.currentDay = some 43 ∧ (busy.calendar.day 43).state = .opened
      ∧ (∀ b ∈ [[(240 : Byte), 0, 0, 0, 0, 0], [239, 3, 0, 0, 0, 0], [239, 2, 0, 0, 2, 0], [239, 2, 5, 160, 1, 100], [239, 2, 5, 161, 1, 101]],
        (asked busy .calendar .calendarPut b).Routes .calendar .calendarPut (request .calendar .calendarPut b))
      ∧ (calendarForm [239, 2, 5, 160, 1, 100]).operatingMinutes = 1440
      ∧ (calendarForm [239, 2, 5, 161, 1, 101]).credit.value = 101 ∧ dayClassOf 2 = some .low := by decide +kernel


/-! ### States that meet the hypotheses of the statements: lanes -/

theorem witness_LaneRequestsTaken :
    (∀ k ∈ [RequestKind.laneRelease, .laneLock, .laneFaultClear],
      (asked busy (.lane 0) k [0]).Routes (.lane 0) k (request (.lane 0) k [0]))
      ∧ (busy.lane 0).configuredMode = .released ∧ { lane0 with configuredMode := .locked }.configuredMode = .locked
      ∧ (let x := { lane0 with stuckOpen := true }; x.stuckOpen = true ∧ x.latchReleased = false)
      ∧ (let x := { lane0 with stuckOpen := true, latchReleased := true }; x.actuationFail = false ∧ x.latchReleased = true)
      ∧ (let x := { lane0 with actuationFail := true, stuckOpen := true, latchReleased := true }; x.actuationFail = true)
      ∧ (busy.lane 0).actuationFail = false ∧ (busy.lane 0).stuckOpen = false
      ∧ (∀ b ∈ [[(0 : Byte), 4, 0, 0], [0, 3, 2, 0], [0, 3, 1, 4], [0, 3, 1, 3], [0, 0, 0, 0], [0, 3, 1, 0]],
        (asked busy (.lane 0) .laneConfig b).Routes (.lane 0) .laneConfig (request (.lane 0) .laneConfig b))
      ∧ 3 < (laneForm [0, 4, 0, 0]).primary ∧ 1 < (laneForm [0, 3, 2, 0]).secondary.presence
      ∧ (laneForm [0, 3, 1, 4]).secondary.value = 4 ∧ (laneForm [0, 3, 1, 3]).secondary.value = (laneForm [0, 3, 1, 3]).primary
      ∧ ((laneForm [0, 0, 0, 0]).primary = (0 : LiftNo).val ∧ (laneForm [0, 0, 0, 0]).secondary.presence = 0
        ∧ (busy.lane 0).primaryLift = 0 ∧ (busy.lane 0).secondaryLift = none)
      ∧ ((laneForm [0, 3, 1, 0]).primary = (3 : LiftNo).val ∧ (laneForm [0, 3, 1, 0]).secondary.presence = 1
        ∧ (laneForm [0, 3, 1, 0]).secondary.value = (0 : LiftNo).val ∧ some (0 : LiftNo) ≠ some 3) := by decide +kernel

theorem witness_LaneLinesAndWindows :
    false ≠ (busy.lane 0).presence.line
      ∧ (∀ line ∈ [true, false], { line := line, debounced := !line, remaining := some 0 : Debounce Bool }.remaining = some 0)
      ∧ true ≠ (busy.lane 0).latchReleased
      ∧ (let x := { lane0 with driveWindow := some 0, unlock := true }; x.driveWindow = some 0 ∧ x.unlock = true ∧ x.latchReleased = false)
      ∧ (let x := { lane0 with releaseWatch := some 0, latchReleased := true }; x.releaseWatch = some 0 ∧ x.watched = true) := by
  decide +kernel

/-- The end of an event at a lane with the latch held and newly to be driven, driven already, and at one that releases UNLOCK with the latch released. -/
theorem witness_LaneLinesAndWindows_settle :
    ({ lane0 with effective := .overrideFree }.settle.driveWindow = some 250)
      ∧ ({ lane0 with admission := some (admitted (some .unlocked) 0), unlock := true, driveWindow := some 7 }.settle.driveWindow = some 7)
      ∧ ({ lane0 with unlock := true, latchReleased := true }.settle.releaseWatch = some 250)
      ∧ ({ lane0 with latchReleased := true, releaseWatch := some 0 }.settle.releaseWatch = some 0) := by decide +kernel

theorem witness_LaneFramesTaken :
    (busy.lane 1).presence.debounced = false ∧ (busy.lane 0).presence.debounced = true ∧ (busy.lane 0).sending = none
      ∧ parseLaneFrame [2, 1, 3, 250] = .bad ∧ parseLaneFrame (tapFrame pass) = .tap pass ∧ parseLaneFrame (keyFrame .free) = .key .free
      ∧ (let x := { lane0 with sending := some [0x81] }; x.sending ≠ none)
      ∧ (byteSum [2, 1, 1, 253] ≠ 0 ∧ parseLaneFrame [2, 1, 1, 253] = .bad)
      ∧ (∀ frame ∈ [[], [1], [0, 0], [3, 1, 0, 252], [0x81, 3, 0, 0, 0, 0x7C], [1, 7, 0, 0, 0, 0, 0, 0, 0, 248], [2, 2, 0, 0, 252]],
          parseLaneFrame frame = .bad)
      ∧ { lane0 with validationInFlight := true }.validationInFlight = true ∧ lane0.validationInFlight = false
      ∧ lane0.keyPosition = .normal ∧ KeyPosition.normal ≠ .free
      ∧ (let x := { lane0 with showSlot := some { signal := .dark, reason := .complete, heads := 0 } };
        x.showSlot = some { signal := .dark, reason := .complete, heads := 0 } ∧ x.sending = none) := by decide +kernel

theorem witness_TapsTaken :
    (lane0.effective = .inService ∧ lane0.admission = none)
      ∧ (let x := { lane0 with admission := some (admitted none 0) }; x.admission = some (admitted none 0) ∧ (admitted none 0).uid = pass)
      ∧ (∀ e ∈ [EffectiveState.detached, .faulted, .overrideFree, .locked, .overrideShut, .dayClosed, .noLift],
        { lane0 with effective := e }.effective = e)
      ∧ (let x := { lane0 with emptiedTaps := [pass], validationInFlight := true }; x.emptiedTaps = pass :: []
        ∧ x.validationInFlight = true ∧ x.effective = .inService ∧ x.admission = none)
      ∧ (let x := { lane0 with emptiedTaps := [pass], validationInFlight := true, effective := .locked }; x.emptiedTaps = pass :: []
        ∧ x.validationInFlight = true ∧ x.effective ≠ .inService)
      ∧ (let x := { lane0 with emptiedTaps := [pass], validationInFlight := true, admission := some (admitted none 0) };
        x.emptiedTaps = pass :: [] ∧ x.validationInFlight = true ∧ x.admission ≠ none)
      ∧ (let x := { lane0 with emptiedTaps := [pass] }; x.emptiedTaps = pass :: [] ∧ x.validationInFlight = false) := by decide +kernel

/-- Lane 0 about to validate the pass, its row as given. -/
def deciding (f : PassRow → PassRow) : State :=
  { withRow f with lanes := busy.lanes.set 0 { lane0 with rowOps := [.validate pass], validationInFlight := true } }

theorem witness_ValidationDecides :
    validating.table.cancellations[(0 : LaneNo)] = [] ∧ validating.RowOpNext 0 (.validate pass)
      ∧ (validating.lane 0).effective = .inService ∧ (validating.lane 0).servedLift = some 0
      ∧ validating.decision pass 0 = .ok (slot, row17)
      ∧ (deciding fun r => { r with status := .blocked }).decision pass 0 = .error .blocked
      ∧ (deciding fun r => { r with status := .blocked }).RowOpNext 0 (.validate pass)
      ∧ (∀ e ∈ [EffectiveState.faulted, .overrideFree, .overrideShut, .locked, .dayClosed, .noLift],
        (withLane fun x => { x with rowOps := [.validate pass], effective := e }).RowOpNext 0 (.validate pass)
          ∧ e.denial ≠ none)
      ∧ (withLane fun x => { x with rowOps := [.validate pass], effective := .detached }).RowOpNext 0 (.validate pass) := by
  decide +kernel

/-- Each check of R92 to R98 with its row, and the rows a check's boundary lets through. -/
theorem witness_ValidationDecides_checks :
    lookup busy.table.slots 1 = none
      ∧ (deciding fun r => { r with status := .retired }).decision pass 0 = .error .retired
      ∧ (deciding fun r => { r with product := 18 }).decision pass 0 = .error .noProduct
      ∧ { deciding id with calendar := Calendar.powerOn }.decision pass 0 = .error .notValidToday
      ∧ (deciding fun r => { r with expiryDay := some 42 }).decision pass 0 = .error .notValidToday
      ∧ (deciding fun r => { r with expiryDay := some 43 }).decision pass 0 matches .ok _
      ∧ { deciding id with lifts := busy.lifts.set 0 { lift0 with resortLift := 4 } }.decision pass 0 = .error .wrongLift
      ∧ (deciding fun r => { r with pendingLane := some 5 }).decision pass 0 = .error .passInUse
      ∧ (deciding fun r => { r with lastPassage := some { lift := 0, day := 43, second := 35941 } }).decision pass 0 = .error .tooSoon
      ∧ (deciding fun r => { r with lastPassage := some { lift := 0, day := 43, second := 35940 } }).decision pass 0 matches .ok _
      ∧ (deciding fun r => { r with consumed := [1, 2, 3, 4, 5] }).decision pass 0 = .error .noDaysLeft
      ∧ (deciding fun r => { r with consumed := [1, 2, 3, 4, 43] }).decision pass 0 matches .ok _
      ∧ product17.liftMask.getLsbD (busy.lift 0).resortLift = true := by
  refine ⟨?_, ?_, ?_, ?_, ?_, ?_, ?_, ?_, ?_, ?_, ?_, ?_, ?_⟩ <;> decide +kernel

theorem witness_RotationsTaken :
    true ≠ lane0.rotationLine.active ∧ { lane0 with rotationLine := { active := false, inactiveMs := 19 } }.rotationLine.inactiveMs < 20
      ∧ ((busy.lane 0).rotationLine.active = false ∧ 20 ≤ (busy.lane 0).rotationLine.inactiveMs)
      ∧ (busy.lane 0).effective ≠ .detached ∧ (busy.lane 0).effective ≠ .overrideFree
      ∧ (let a := admitted (some .unlocked) 0; a.phase = some .unlocked ∧ a.headsPassed + 1 < a.headsTotal)
      ∧ (let a := admitted (some .unlocked) 1; a.phase = some .unlocked ∧ a.headsTotal ≤ a.headsPassed + 1)
      ∧ (∀ e ∈ [EffectiveState.detached, .overrideFree],
        (withLane fun x => { x with effective := e }).lane 0 = { lane0 with effective := e }) := by decide +kernel

/-- Lane 0 with a row operation at the head of its list, and the pass's row as given. -/
def committing (op : RowOp) (f : PassRow → PassRow) : State :=
  { withRow f with lanes := busy.lanes.set 0 { lane0 with rowOps := [op] } }

theorem witness_PassageRowsWritten :
    (∀ day ∈ [none, some 42, some 43], ∀ head ∈ [1, 2],
        (committing (.passage slot pass head 0 { day := day, second := 36000 }) id).RowOpNext 0
          (.passage slot pass head 0 { day := day, second := 36000 }))
      ∧ (committing (.closing slot pass) id).RowOpNext 0 (.closing slot pass)
      ∧ slotAt busy.table.slots slot = some row17 ∧ row17.uid = pass ∧ (2 : Nat) ≠ 1
      ∧ (busy.product 17).kind = .multiDay ∧ 42 ∈ row17.consumed ∧ 43 ∉ row17.consumed
      ∧ row17.consumed.length < (busy.product 17).dayCount
      ∧ (∃ row ∈ slotAt season.table.slots slot, (season.product row.product).kind = .season ∧ row.lastCountedDay = some 42)
      ∧ (∃ row ∈ slotAt admitting.table.slots slot, row.uid = pass ∧ row.pendingLane = some 0)
      ∧ row17.pendingLane ≠ some 0 := by
  refine ⟨by decide +kernel, by decide +kernel, by decide +kernel, by decide +kernel, by decide, by decide +kernel,
    by decide +kernel, by decide +kernel, by decide +kernel, ⟨_, rfl, ?_⟩, ⟨_, rfl, ?_⟩, by decide +kernel⟩ <;> decide +kernel

/-- Lift 0's answer to lane 0, the lane's admission in a phase. -/
def answering (a : LiftAnswer) (phase : Option Phase) : State :=
  { withLift (fun y => { y with answers := (Vector.replicate 12 []).set 0 [a] }) with
    lanes := busy.lanes.set 0 { lane0 with admission := some (admitted phase 0), lastRequest := 1 } }

theorem witness_LiftAnswersTaken :
    (∀ a ∈ [LiftAnswer.place 1, .place 2, .hold 1, .hold 2, .refusal 1, .refusal 2], ∀ phase ∈ [none, some Phase.hold, some .unlocked],
      ((answering a phase).lift 0).answers[(0 : LaneNo)] = a :: [])
      ∧ (∀ phase ∈ [none, some Phase.hold, some .unlocked],
        ((answering (.place 1) phase).lane 0).admission = some (admitted phase 0) ∧ (admitted phase 0).lift = 0
          ∧ (admitted phase 0).request = 1 ∧ (admitted phase 0).request ≠ 2) := by decide +kernel

theorem witness_AdmissionsEnd :
    (∀ heads ∈ [0, 1], (admitted (some .unlocked) heads).deadline = some { setAt := 0, duration := 8000 })
      ∧ (admitted (some .hold) 0).deadline = some { setAt := 0, duration := 8000 }
      ∧ (8000 : Nat) ≤ (({ busy with timebase := 8000 } : State).timebase - 0).toNat
      ∧ (admitted (some .unlocked) 0).headsPassed = 0 ∧ (admitted (some .unlocked) 1).headsPassed ≠ 0
      ∧ { busy.table with cancellations := busy.table.cancellations.set 0 [pass] }.cancellations[0] = pass :: []
      ∧ { busy.table with cancellations := busy.table.cancellations.set 0 [5] }.cancellations[0] = 5 :: []
      ∧ (admitted none 0).uid = pass ∧ (admitted none 0).uid ≠ 5 := by decide +kernel

/-! ### Lifts -/

/-- Lane 0 with a message to lift 0, the lift as given. -/
def telling (m : LaneMessage) (f : Lift → Lift) : State :=
  { withLift f with lanes := busy.lanes.set 0 { lane0 with toLifts := (Vector.replicate 4 []).set 0 [m] } }

theorem witness_LiftEventsTaken :
    (∀ m ∈ [LaneMessage.placeRequest 1, .passage 1, .release 1, .leave 1, .freePassage, .intrusion],
      ((telling m id).lane 0).toLifts[(0 : LiftNo)] = m :: [])
      ∧ { lift0 with enabled := false }.inOperation = false ∧ lift0.inOperation = true
      ∧ { lift0 with corralLimit := 0 }.corralLimit = 0
      ∧ (lift0.corralLimit ≠ 0 ∧ lift0.holdQueue = []
        ∧ { lift0 with occupancy := 3 }.occupancy + lift0.reservations.length < lift0.corralLimit)
      ∧ lift0.corralLimit ≤ { lift0 with occupancy := 4 }.occupancy + lift0.reservations.length
      ∧ { lift0 with holdQueue := [{ lane := 1, request := 4, holdStart := 0 }] }.holdQueue ≠ [] := by decide +kernel

theorem witness_CarrierPulsesTaken :
    (busy.lift 0).carrierLine.active = false ∧ (busy.lift 0).carrierLine.inactiveMs = 20 ∧ (busy.lift 0).state = .running
      ∧ (busy.lift 1).state ≠ .running
      ∧ (let y := { lift0 with carrierLine := { active := false, inactiveMs := 19 } };
        true ≠ y.carrierLine.active ∧ y.carrierLine.inactiveMs < 20) := by decide +kernel

theorem witness_LiftLinesAndConfig :
    (busy.lift 0).lineState.line ≠ .stopped ∧ (busy.lift 0).lineState.line ≠ .closedWeather
      ∧ (∀ line ∈ [LiftState.closedWeather, .stopped],
        let y := { lift0 with lineState := { line := line, debounced := .running, remaining := some 0 } }
        y.lineState.remaining = some 0 ∧ y.inOperation = true)
      ∧ { lift0 with lineState := { line := .stopped, debounced := .stopped, remaining := none } }.inOperation = true
      ∧ { lift0 with lineState := { line := .closedWeather, debounced := .closedWeather, remaining := none } }.inOperation = false
      ∧ (∀ b ∈ [[(0 : Byte), 2, 0, 0, 0, 0], [0, 1, 63, 12, 3, 231], [0, 1, 64, 0, 3, 232], [0, 0, 5, 4, 0, 4], [0, 1, 5, 4, 0, 4],
          [0, 1, 5, 4, 0, 0], [0, 1, 5, 4, 0, 5]],
        (asked busy (.lift 0) .liftConfig b).Routes (.lift 0) .liftConfig (request (.lift 0) .liftConfig b))
      ∧ (liftForm [0, 1, 64, 0, 3, 232]).limit = 1000 ∧ (liftForm [0, 1, 63, 12, 3, 231]).limit = 999
      ∧ (let y := { lift0 with changes := lift0.changes.set 0 [false] }; y.changes[0] = false :: [])
      ∧ { lane0 with primaryLift := 1 }.primaryLift ≠ 0 ∧ lane0.secondaryLift ≠ some 0 ∧ lane0.primaryLift = 0 := by
  decide +kernel

/-- The served lift derived again: unchanged, changed without an admission, and with one for a lift served no longer. -/
theorem witness_LiftLinesAndConfig_served :
    lane0.liftInOperation[lane0.primaryLift] = true ∧ lane0.servedLift = some 0
      ∧ (let x := { lane0 with liftInOperation := Vector.replicate 4 false };
        x.liftInOperation[x.primaryLift] = false ∧ x.secondaryLift = none ∧ x.admission = none)
      ∧ (∀ phase ∈ [none, some Phase.hold, some .unlocked],
        let x := { lane0 with primaryLift := 1, secondaryLift := some 2, liftInOperation := (Vector.replicate 4 false).set 2 true,
                              admission := some (admitted phase 0) }
        x.liftInOperation[x.primaryLift] = false ∧ x.liftInOperation[(2 : LiftNo)] = true ∧ x.servedLift ≠ some 2
          ∧ x.admission = some (admitted phase 0) ∧ (2 : LiftNo) ≠ (admitted phase 0).lift
          ∧ x.resetsPending = 0 ∧ (busy.laneEnv 0).discards[(admitted phase 0).lift] = false) := by decide +kernel


/-! ### States that meet the hypotheses of the statements: journal, refunds and streams -/

theorem witness_JournalTakes :
    { busy with table := { busy.table with records := [record 86399 (some 3)] } }.recordsOf .passTable = [record 86399 (some 3)]
      ∧ (withLane fun x => { x with records := [record 0 none] }).recordsOf (.lane 0) = [record 0 none]
      ∧ busy.journal.held < 4080
      ∧ { busy.journal with ring := List.replicate 4080 { sequence := 1, resortLift := none, body := record 0 none } }.held = 4080
      ∧ (record 0 (some 3)).lift = some 3 ∧ (record 0 none).lift = none
      ∧ (∀ q ∈ [0, 1, 2, 3, 4294967295], ∀ k ∈ [RequestKind.journalAck, .journalReplay],
        (asked busy .journal k (be q 4)).Routes .journal k (request .journal k (be q 4)) ∧ field (be q 4) 0 4 = q) := by decide +kernel

/-- The ring of R135: its held sequences, those freed, and one not yet appended; the boundaries of the distance. -/
theorem witness_JournalTakes_ring :
    (∃ x : JournalRecord, wrapped.ring = wrapped.ring.take 2 ++ x :: wrapped.ring.drop 3 ∧ x.sequence = 1)
      ∧ wrapped.sendPosition = some 1 ∧ wrapped.replayCursor = some 2
      ∧ (∀ y ∈ wrapped.ring.take 2, y.sequence ≠ 1) ∧ (∀ y ∈ wrapped.ring.drop 3, y.sequence ≠ 1) ∧ (∃ y ∈ wrapped.ring.drop 3, y.sequence = 2)
      ∧ (∀ y ∈ (wrapped.free 1).ring, y.sequence ≠ 4294967295 ∧ y.sequence ≠ 3)
      ∧ (2 + 4294967295 - 4294967295) % 4294967295 = 2 ∧ (2 + 4294967295 - 3) % 4294967295 = 4294967294
      ∧ (let j := { Journal.powerOn with lowMark := 1, highMark := 2, ring := wrapped.ring.take 2 }; j.above = false ∧ j.highMark ≤ j.held)
      ∧ (Journal.powerOn.above = false ∧ Journal.powerOn.held < Journal.powerOn.highMark)
      ∧ (let j := { wrapped with above := true, lowMark := 4 }; j.above = true ∧ j.held ≤ j.lowMark)
      ∧ (let j := { wrapped with above := true, lowMark := 3 }; j.above = true ∧ j.lowMark < j.held) :=
  ⟨⟨_, rfl, rfl⟩, by decide +kernel, by decide +kernel, by decide +kernel, by decide +kernel, by decide +kernel, by decide +kernel,
    by decide, by decide, by decide +kernel, by decide +kernel, by decide +kernel, by decide +kernel⟩

theorem witness_RefundFigures :
    (999999 : Nat) ≤ 999999 ∧ (List.replicate 14 ({ rate := 99999, credit := 100 } : DayTerm)).length ≤ 14
      ∧ (∀ t ∈ List.replicate 14 ({ rate := 99999, credit := 100 } : DayTerm), t.rate ≤ 99999 ∧ t.credit ≤ 100) := by decide +kernel

/-- A REFUND_REQUEST of the pass, in the mode given. -/
def refunding (s : State) (mode : Byte) : State := asked s .refundUnit .refundRequest (uidBytes pass ++ [mode])

theorem witness_RefundsServed_form :
    (∀ b ∈ [uidBytes pass ++ [2], uidBytes 0 ++ [1], uidBytes 0 ++ [0]],
      (asked busy .refundUnit .refundRequest b).BadRefund (request .refundUnit .refundRequest b))
      ∧ (request .refundUnit .refundRequest (uidBytes pass ++ [2])).refundMode ≠ some .retire
      ∧ (request .refundUnit .refundRequest (uidBytes 0 ++ [1])).refundMode = some .retire := by decide +kernel

theorem witness_RefundsServed_presented (mode : Byte) (h : mode = 0 ∨ mode = 1) :
    (∀ q, ¬ (refunding busy mode).BadRefund q)
      ∧ (refunding busy mode).Presents .refundRequest (request .refundUnit .refundRequest (uidBytes pass ++ [mode])) := by
  constructor
  · intro q ⟨⟨first, _⟩, bad⟩
    obtain rfl : request .refundUnit .refundRequest (uidBytes pass ++ [mode]) = q := Option.some.inj first
    obtain rfl | rfl := h <;> exact absurd bad (by decide +kernel)
  · obtain rfl | rfl := h <;> decide +kernel

theorem witness_RefundsServed_figures :
    (request .refundUnit .refundRequest (uidBytes pass ++ [0])).refundMode = some .quote
      ∧ (request .refundUnit .refundRequest (uidBytes pass ++ [1])).refundMode = some .retire
      ∧ (∃ c, busy.valuePass pass = .ok c ∧ c.figures.net = 19312)
      ∧ ({ busy with minimumPayout := 19312 }.minimumPayout ≤ 19312 ∧ 19312 < { busy with minimumPayout := 19313 }.minimumPayout)
      ∧ busy.journal.held < 4096
      ∧ 4096 ≤ { busy.journal with ring := List.replicate 4096 { sequence := 1, resortLift := none, body := record 0 none } }.held :=
  ⟨by decide +kernel, by decide +kernel, ⟨_, rfl, by decide +kernel⟩, by decide +kernel, by decide +kernel, by decide +kernel⟩

/-- The part at work with another product 17. -/
def withProduct (p : Product) : State := { busy with products := busy.products.set 17 p }

/-- The code of each check of R145, in its order, and the last day of the refund term. -/
theorem witness_RefundsServed_checks :
    let refused (s : State) (uid : Uid) (code : ReplyCode) : Bool :=
      match s.valuePass uid with
      | .error (c, _) => c == code
      | .ok _ => false
    refused { busy with calendar := Calendar.powerOn } pass .noDay ∧ refused busy 1 .unknown
      ∧ refused (withRow fun r => { r with status := .blocked }) pass .blocked ∧ refused retired pass .alreadyRetired
      ∧ refused (withRow fun r => { r with product := 18 }) pass .noProduct
      ∧ refused (withProduct { product17 with refundable := false }) pass .notRefundable
      ∧ refused (withRow fun r => { r with expiryDay := some 35 }) pass .expired
      ∧ refused (withRow fun r => { r with expiryDay := some 36 }) pass .expired = false
      ∧ refused (withRow fun r => { r with pendingLane := some 0 }) pass .passBusy
      ∧ refused (withRow fun r => { r with consumed := [1, 2, 3, 4, 5] }) pass .nothingUnused := by decide +kernel

/-- A retired row with a refund, and one blocked by the server as RETIRED that carries none. -/
theorem witness_RefundsServed_retired :
    (∃ row f, lookup retired.table.slots pass = some (slot, row) ∧ row.status = .retired ∧ row.refund = some f ∧ f.paidPerHead = 19312)
      ∧ ∃ row, lookup (withRow fun r => { r with status := .retired }).table.slots pass = some (slot, row) ∧ row.status = .retired
        ∧ row.refund = none :=
  ⟨⟨_, _, rfl, rfl, rfl, rfl⟩, _, rfl, rfl, rfl⟩

/-- The part with a stream in a state, its last chunk's number as given. -/
def streaming (st : StreamState) (sweep : Bool) (expected : Nat) : State :=
  { busy with stream := { Stream.initial with state := st, sweepFlag := sweep, expectedChunk := expected, generation := 2 } }

/-- A STREAM_DATA of a chunk number that announces a count of rows, all zero. -/
def dataBody (number : Nat) (count : Byte) : List Byte := be number 2 ++ [count] ++ List.replicate (36 * count.toNat) 0

theorem witness_StreamsLoad :
    (∀ b ∈ [[(2 : Byte), 2], [2, 1], [2, 0]],
      (asked busy .streamUnit .streamOpen b).StreamAsks .streamOpen (request .streamUnit .streamOpen b))
      ∧ field [2, 2] 1 1 = 2 ∧ field [2, 1] 1 1 = 1 ∧ busy.stream.state = .idle ∧ (streaming .opened false 0).stream.state ≠ .idle
      ∧ (∀ count ∈ [(0 : Byte), 1, 16, 17],
        (asked (streaming .opened false 65535) .streamUnit .streamData (dataBody 65535 count)).StreamAsks .streamData
          (request .streamUnit .streamData (dataBody 65535 count))
          ∧ field (dataBody 65535 count) 0 2 = 65535 ∧ field (dataBody 65535 count) 2 1 = count.toNat)
      ∧ (streaming .opened false 0).stream.expectedChunk ≠ 65535 ∧ (streaming .sweeping true 0).stream.state = .sweeping
      ∧ (streaming .suspended true 0).stream.state = .suspended := by decide +kernel

/-- A chunk with two rows, and with its last. -/
theorem witness_StreamsLoad_rows :
    ∀ rest ∈ [[putBody 17 0 2 [43]], []],
      let c : Chunk := { place := some 0, number := 0, rows := putBody 17 0 2 [41] :: rest, position := 0, refusedRows := [] }
      let s := { streaming .opened false 0 with stream := { (streaming .opened false 0).stream with chunk := some c } }
      s.nextGrant = some .streamUnit ∧ s.stream.chunk = some c ∧ c.rows = putBody 17 0 2 [41] :: rest := by decide +kernel

theorem witness_StreamsEnd :
    (∀ k ∈ [RequestKind.streamSuspend, .streamResume, .streamClose, .streamAbort],
      ∀ st ∈ [StreamState.idle, .opened, .suspended, .sweeping], ∀ sweep ∈ [true, false],
        (asked (streaming st sweep 3) .streamUnit k []).StreamAsks k (request .streamUnit k [])
          ∧ (streaming st sweep 3).stream.state = st ∧ (streaming st sweep 3).stream.sweepFlag = sweep)
      ∧ (let s := { streaming .opened false 0 with
            stream := { (streaming .opened false 0).stream with idleDeadline := some { setAt := 0, duration := 30000 } }, timebase := 30000 };
        s.stream.state = .opened ∧ s.stream.chunk = none ∧ s.stream.idleDeadline = some { setAt := 0, duration := 30000 }
          ∧ 30000 ≤ (s.timebase - 0).toNat) := by decide +kernel

/-- Sweep steps on a free slot, a row of the stream's generation, and rows of another: pending, refunded, and neither. -/
theorem witness_StreamsEnd_sweep :
    (∀ s ∈ [busy, retired, admitting],
      { s with stream := { (streaming .sweeping true 0).stream with sweepCursor := slot } }.nextGrant = some .sweep)
      ∧ slotAt busy.table.slots 65535 = none
      ∧ (∃ row ∈ slotAt busy.table.slots slot, row.generation = 1 ∧ row.generation ≠ (streaming .sweeping true 0).stream.generation
        ∧ row.pendingLane = none ∧ row.refund = none)
      ∧ (∃ row ∈ slotAt admitting.table.slots slot, row.generation ≠ 2 ∧ row.pendingLane ≠ none)
      ∧ (∃ row ∈ slotAt retired.table.slots slot, row.generation ≠ 2 ∧ row.pendingLane = none ∧ row.refund ≠ none)
      ∧ { (streaming .sweeping true 0).stream with sweepCursor := 65534 }.sweepCursor < 65535 := by
  refine ⟨by decide +kernel, by decide +kernel, ⟨_, rfl, ?_⟩, ⟨_, rfl, ?_⟩, ⟨_, rfl, ?_⟩, by decide⟩ <;> decide +kernel

end Sys2Proof.Tests
end

section
set_option Elab.async false
/-! Every command answers, and what it leaves unchanged: the frame of each command by the parts it writes, and the stillness of a command whose
arrival does not stand (R5, R43; log entry 1). -/
namespace Sys2Proof.Machine

/-! ### Frames -/

/-- Every part of the state that is not among those written stands in `t` as in `s`. -/
def Keeps (written : List Part) (s t : State) : Prop := ∀ p, p ∉ written → p.same s t

/-- The command answers a next state, and this state has the property. -/
def Answers (P : State → Prop) (r : Result) : Prop := ∃ t, r = .next t ∧ P t

@[simp] theorem answers_next (P : State → Prop) (t : State) : Answers P (.next t) ↔ P t := by simp [Answers]

theorem keeps_iff (w : List Part) (s t : State) : Keeps w s t ↔
    (.trunk ∈ w ∨ t.trunk = s.trunk) ∧ (.routed ∈ w ∨ t.routed = s.routed) ∧ (.table ∈ w ∨ t.table = s.table)
      ∧ (.arbiter ∈ w ∨ t.arbiter = s.arbiter) ∧ (.products ∈ w ∨ t.products = s.products)
      ∧ (.protection ∈ w ∨ t.protection = s.protection) ∧ (.serviceKey ∈ w ∨ t.serviceKey = s.serviceKey)
      ∧ (.calendar ∈ w ∨ t.calendar = s.calendar) ∧ (.lanes ∈ w ∨ t.lanes = s.lanes) ∧ (.lifts ∈ w ∨ t.lifts = s.lifts)
      ∧ (.journal ∈ w ∨ t.journal = s.journal) ∧ (.minimumPayout ∈ w ∨ t.minimumPayout = s.minimumPayout)
      ∧ (.stream ∈ w ∨ t.stream = s.stream) ∧ (.timebase ∈ w ∨ t.timebase = s.timebase)
      ∧ (.resetLine ∈ w ∨ t.resetLine = s.resetLine) ∧ (.freeIndex ∈ w ∨ t.freeIndex = s.freeIndex)
      ∧ (.pending ∈ w ∨ t.pending = s.pending) := by
  constructor
  · intro h
    have of (p : Part) : p ∈ w ∨ p.same s t := by by_cases m : p ∈ w; exacts [.inl m, .inr (h p m)]
    exact ⟨of .trunk, of .routed, of .table, of .arbiter, of .products, of .protection, of .serviceKey, of .calendar, of .lanes,
      of .lifts, of .journal, of .minimumPayout, of .stream, of .timebase, of .resetLine, of .freeIndex, of .pending⟩
  · intro h p m
    cases p <;> simp_all [Part.same]

@[simp] theorem Keeps.refl (w : List Part) (s : State) : Keeps w s s := fun p _ => by cases p <;> rfl

/-- Every command answers, and writes no part but those listed for it. -/
theorem exec_keeps (c : Instr) (s : State) : Answers (Keeps (Part.writtenBy c) s) (exec c s) := by
  cases c
  case passPut | passSetStatus | passDelete | passRead | usageMerge | productPut | productClear | refundQuote | refundRetire =>
    simp only [exec, execPassPut, execPassSetStatus, execPassDelete, execPassRead, execUsageMerge, execProductPut, execProductClear,
      execRefundQuote, execRefundRetire]
    repeat' split
    all_goals simp_all [State.takePortRequest_eq_some, State.takeBadRefund_eq_some, keeps_iff, Part.writtenBy]
  case validation | passageCommit | headRecord | closingRowOperation =>
    simp only [exec, execValidation, execPassageCommit, execHeadRecord, execClosingRowOperation]
    repeat' split
    all_goals simp_all [State.takeRowOp_eq_some, keeps_iff, Part.writtenBy]
  case streamOpen | streamData | streamSuspend | streamResume | streamClose | streamAbort =>
    simp only [exec, execStreamOpen, execStreamData, execStreamSuspend, execStreamResume, execStreamClose, execStreamAbort]
    repeat' split
    all_goals simp_all [State.takeStreamRequest_eq_some, keeps_iff, Part.writtenBy]
  case streamChunkRow | streamIdleExpiry | sweepStep =>
    simp only [exec, execStreamChunkRow, execStreamIdleExpiry, execSweepStep]
    repeat' split
    all_goals simp_all [State.grant_eq_some, keeps_iff, Part.writtenBy]
  case productRead | protectSet | dayOpen | dayClose | time | calendarPut | calendarRead | laneFaultClear | laneConfig | laneRead
      | liftConfig | liftRead | journalAck | journalReplay | journalRead | status | restart | noticeMask | noticeAck =>
    simp only [exec, execProductRead, execProtectSet, execDayOpen, execDayClose, execTime, execCalendarPut, execCalendarRead,
      execLaneFaultClear, execLaneConfig, execLaneRead, execLiftConfig, execLiftRead, execJournalAck, execJournalReplay,
      execJournalRead, execStatus, execRestart, execNoticeMask, execNoticeAck]
    repeat' split
    all_goals simp_all [State.takeRequest_eq_some, keeps_iff, Part.writtenBy]
  case config owner =>
    cases owner <;> simp only [exec, execConfig] <;> split <;> simp_all [State.takeRequest_eq_some, keeps_iff, Part.writtenBy]
  case noticeRaise source =>
    cases source <;> simp only [exec, execNoticeRaise] <;> split <;> simp_all [keeps_iff, Part.writtenBy, State.setRaises]
  case passageRecordTake owner =>
    cases owner <;> simp only [exec, execPassageRecordTake] <;> split <;> simp_all [keeps_iff, Part.writtenBy, State.setRecords]
  case tap | key | laneFrameDrop | waitingTapTake | laneStationReset | presentLineChange | presenceDebounceExpiry | latchSenseChange
      | driveWindowExpiry | releaseWatchExpiry | showSend | showSent | rotation | passageWindowExpiry | holdTimeoutExpiry
      | laneDayOpen | laneDayClose | passStatusCancellation | laneRelease | laneLock =>
    simp only [exec, execTap, execKey, execLaneFrameDrop, execWaitingTapTake, execLaneStationReset, execPresentLineChange,
      execPresenceDebounceExpiry, execLatchSenseChange, execDriveWindowExpiry, execReleaseWatchExpiry, execShowSend, execShowSent,
      execRotation, execPassageWindowExpiry, execHoldTimeoutExpiry, execLaneDayOpen, execLaneDayClose, execPassStatusCancellation,
      execLaneRelease, execLaneLock]
    repeat' split
    all_goals simp_all [keeps_iff, Part.writtenBy]
  case liftStationReset | placeRequest | place | hold | refusal | liftPassage | release | leave | liftFreePassage | liftIntrusion
      | inOperationChange | carrierPulse | liftLineChange | liftDebounceExpiry =>
    simp only [exec, execLiftStationReset, execPlaceRequest, execPlace, execHold, execRefusal, execLiftPassage, execRelease, execLeave,
      execLiftFreePassage, execLiftIntrusion, execInOperationChange, execCarrierPulse, execLiftLineChange, execLiftDebounceExpiry]
    repeat' split
    all_goals simp_all [keeps_iff, Part.writtenBy]
  case powerOnReset | memoryClearDone | stationReset | cabinetResetLine | resetLineChange | serviceKeyLineChange
      | serviceKeyDebounceExpiry | countAdvance | journalDayOpen | protectionDayOpen | trunkFrameReceive | requestRoute
      | transmitFrame =>
    simp only [exec, execPowerOnReset, execMemoryClearDone, execStationReset, execCabinetResetLine, execResetLineChange,
      execServiceKeyLineChange, execServiceKeyDebounceExpiry, execCountAdvance, execJournalDayOpen, execProtectionDayOpen,
      execTrunkFrameReceive, execRequestRoute, execTransmitFrame]
    repeat' split
    all_goals simp_all [keeps_iff, Part.writtenBy]

theorem exec_frame {c : Instr} {s t : State} (h : exec c s = .next t) : Keeps (Part.writtenBy c) s t := by
  have k := exec_keeps c s
  rwa [h, answers_next] at k

theorem step_answers (s : State) : ∃ t, step s = .next t := by
  cases h : s.pending with
  | nil => exact ⟨s.tick, by simp only [step, h]⟩
  | cons c rest =>
    obtain ⟨t, ht, -⟩ := exec_keeps c { s with pending := rest }
    exact ⟨t, by simp only [step, h, ht]⟩

/-! ### A command whose arrival does not stand -/

theorem State.setLane_self {s : State} {l : LaneNo} {x : Lane} (h : x = s.lane l) : s.setLane l x = s := by
  subst h; simp [State.setLane, State.lane]

theorem State.setLift_self {s : State} {i : LiftNo} {x : Lift} (h : x = s.lift i) : s.setLift i x = s := by
  subst h; simp [State.setLift, State.lift]

theorem Debounce.lineTakes_same {α : Type} [DecidableEq α] (d : Debounce α) (ms : Nat) : d.lineTakes d.line ms = d := by
  simp [Debounce.lineTakes]

theorem PulseLine.takes_same (p : PulseLine) : p.takes p.active = p := by simp [PulseLine.takes]

theorem PulseLine.counts_same (p : PulseLine) : p.counts p.active = false := by simp [PulseLine.counts]

theorem Debounce.isDue_iff {α : Type} (d : Debounce α) : d.isDue = true ↔ d.remaining = some 0 := by simp [Debounce.isDue]

theorem State.takeRequest_eq_none {s : State} {o : Owner} {k : RequestKind} : s.takeRequest o k = none ↔ ¬ ∃ r, s.Routes o k r := by
  rw [← not_iff_not, not_not, ← ne_eq, Option.ne_none_iff_exists']
  simp [State.takeRequest_eq_some]

theorem State.takePortRequest_eq_none {s : State} {k : RequestKind} : s.takePortRequest k = none ↔ ¬ ∃ r, s.Presents k r := by
  rw [← not_iff_not, not_not, ← ne_eq, Option.ne_none_iff_exists']
  simp [State.takePortRequest_eq_some]

theorem State.takeStreamRequest_eq_none {s : State} {k : RequestKind} :
    s.takeStreamRequest k = none ↔ ¬ ∃ r, s.StreamAsks k r := by
  rw [← not_iff_not, not_not, ← ne_eq, Option.ne_none_iff_exists']
  simp [State.takeStreamRequest_eq_some]

theorem State.takeBadRefund_eq_none {s : State} : s.takeBadRefund = none ↔ ∀ r, ¬ s.BadRefund r := by
  rw [← not_iff_not, ← ne_eq, Option.ne_none_iff_exists']
  simp [State.takeBadRefund_eq_some, State.BadRefund, and_assoc]

/-- A command whose arrival does not stand changes nothing (log entry 1). -/
theorem exec_of_not_stands {c : Instr} {s : State} (h : ¬ s.stands c) : exec c s = .next s := by
  cases c
  case powerOnReset | trunkFrameReceive | transmitFrame => exact absurd trivial h
  case passPut | passSetStatus | passDelete | passRead | usageMerge | productPut | productClear =>
    simp only [exec, execPassPut, execPassSetStatus, execPassDelete, execPassRead, execUsageMerge, execProductPut, execProductClear,
      State.takePortRequest_eq_none.2 h]
  case streamOpen | streamData | streamSuspend | streamResume | streamClose | streamAbort =>
    simp only [exec, execStreamOpen, execStreamData, execStreamSuspend, execStreamResume, execStreamClose, execStreamAbort,
      State.takeStreamRequest_eq_none.2 h]
  case productRead | protectSet | dayOpen | dayClose | time | calendarPut | calendarRead | laneRelease | laneLock | laneFaultClear
      | laneConfig | laneRead | liftConfig | liftRead | journalAck | journalReplay | journalRead | status | restart | noticeMask
      | noticeAck =>
    simp only [exec, execProductRead, execProtectSet, execDayOpen, execDayClose, execTime, execCalendarPut, execCalendarRead,
      execLaneRelease, execLaneLock, State.takeMode, execLaneFaultClear, execLaneConfig, execLaneRead, execLiftConfig, execLiftRead,
      execJournalAck, execJournalReplay, execJournalRead, execStatus, execRestart, execNoticeMask, execNoticeAck,
      State.takeRequest_eq_none.2 h]
  case config owner => cases owner <;> simp only [exec, execConfig, State.takeRequest_eq_none.2 h]
  case refundQuote =>
    simp only [exec, execRefundQuote]
    split
    · next r s' bad =>
      obtain ⟨routed, kind, form, rfl⟩ := State.takeBadRefund_eq_some.1 bad
      by_cases m : r.refundMode = some .retire
      · rw [if_pos m]
      · exact absurd ⟨r, .inl ⟨⟨routed, kind⟩, form⟩, m⟩ h
    · next none =>
      split
      · rfl
      · next r s' served =>
        obtain ⟨grant, presented, kind, rfl⟩ := State.takePortRequest_eq_some.1 served
        by_cases m : r.refundMode = some .retire
        · rw [if_pos m]
        · exact absurd ⟨r, .inr ⟨State.takeBadRefund_eq_none.1 none, grant, presented, kind⟩, m⟩ h
  case refundRetire =>
    simp only [exec, execRefundRetire]
    split
    · next r s' bad =>
      obtain ⟨routed, kind, form, rfl⟩ := State.takeBadRefund_eq_some.1 bad
      by_cases m : r.refundMode = some .retire
      · exact absurd ⟨r, .inl ⟨⟨routed, kind⟩, form⟩, m⟩ h
      · rw [if_neg m]
    · next none =>
      split
      · rfl
      · next r s' served =>
        obtain ⟨grant, presented, kind, rfl⟩ := State.takePortRequest_eq_some.1 served
        by_cases m : r.refundMode = some .retire
        · exact absurd ⟨r, .inr ⟨State.takeBadRefund_eq_none.1 none, grant, presented, kind⟩, m⟩ h
        · rw [if_neg m]
  case validation l =>
    simp only [exec, execValidation]
    repeat' split
    · rfl
    · next still _ uid s' taken =>
      obtain ⟨grant, op, -⟩ := State.takeRowOp_eq_some.1 taken
      exact absurd ⟨not_not.1 still, uid, grant, op⟩ h
    · rfl
  case passageCommit l =>
    simp only [exec, execPassageCommit]
    repeat' split
    · next slot uid head lift stamp s' taken first =>
      obtain ⟨grant, op, -⟩ := State.takeRowOp_eq_some.1 taken
      exact absurd ⟨slot, uid, lift, stamp, grant, first ▸ op⟩ h
    · rfl
    · rfl
  case headRecord l =>
    simp only [exec, execHeadRecord]
    repeat' split
    · rfl
    · next slot uid head lift stamp s' taken later =>
      obtain ⟨grant, op, -⟩ := State.takeRowOp_eq_some.1 taken
      exact absurd ⟨slot, uid, head, lift, stamp, later, grant, op⟩ h
    · rfl
  case closingRowOperation l =>
    simp only [exec, execClosingRowOperation]
    split
    · next slot uid s' taken =>
      obtain ⟨grant, op, -⟩ := State.takeRowOp_eq_some.1 taken
      exact absurd ⟨slot, uid, grant, op⟩ h
    · rfl
  case streamChunkRow | streamIdleExpiry | sweepStep =>
    simp only [exec, execStreamChunkRow, execStreamIdleExpiry, execSweepStep]
    repeat' split
    all_goals simp_all [State.grant_eq_some, State.stands]
  case presentLineChange l present =>
    obtain rfl : present = _ := not_not.1 h
    simp only [exec, execPresentLineChange, Debounce.lineTakes_same]
    rw [State.setLane_self rfl]
  case serviceKeyLineChange asserted =>
    obtain rfl : asserted = _ := not_not.1 h
    simp only [exec, execServiceKeyLineChange, Debounce.lineTakes_same]
  case liftLineChange i lsa lsb =>
    have same : decodedLines lsa lsb = _ := not_not.1 h
    simp only [exec, execLiftLineChange, same, Debounce.lineTakes_same]
    rw [State.setLift_self rfl]
  case rotation l active =>
    obtain rfl : active = _ := not_not.1 h
    simp only [exec, execRotation, PulseLine.takes_same, PulseLine.counts_same, Bool.false_eq_true, if_false]
    rw [State.setLane_self rfl]
  case carrierPulse i active =>
    obtain rfl : active = _ := not_not.1 h
    simp only [exec, execCarrierPulse, PulseLine.takes_same, PulseLine.counts_same, Bool.false_eq_true, if_false]
    rw [State.setLift_self rfl]
  case showSent l =>
    have idle : (s.lane l).sending = none := not_not.1 h
    simp only [exec, execShowSent, ← idle]
    rw [State.setLane_self rfl]
  case tap | key | laneFrameDrop | waitingTapTake | laneStationReset | presenceDebounceExpiry | latchSenseChange | driveWindowExpiry
      | releaseWatchExpiry | showSend | passageWindowExpiry | holdTimeoutExpiry | laneDayOpen | laneDayClose
      | passStatusCancellation =>
    simp only [exec, execTap, execKey, execLaneFrameDrop, execWaitingTapTake, execLaneStationReset, execPresenceDebounceExpiry,
      execLatchSenseChange, execDriveWindowExpiry, execReleaseWatchExpiry, execShowSend, execPassageWindowExpiry,
      execHoldTimeoutExpiry, execLaneDayOpen, execLaneDayClose, execPassStatusCancellation, Debounce.isDue_iff]
    repeat' split
    all_goals simp_all [State.stands]
  case liftStationReset | placeRequest | place | hold | refusal | liftPassage | release | leave | liftFreePassage | liftIntrusion
      | inOperationChange | liftDebounceExpiry =>
    simp only [exec, execLiftStationReset, execPlaceRequest, execPlace, execHold, execRefusal, execLiftPassage, execRelease, execLeave,
      execLiftFreePassage, execLiftIntrusion, execInOperationChange, execLiftDebounceExpiry, Debounce.isDue_iff]
    repeat' split
    all_goals simp_all [State.stands]
  case memoryClearDone | stationReset | cabinetResetLine | resetLineChange | serviceKeyDebounceExpiry | countAdvance | journalDayOpen
      | protectionDayOpen | requestRoute | noticeRaise | passageRecordTake =>
    simp only [exec, execMemoryClearDone, execStationReset, execCabinetResetLine, execResetLineChange, execServiceKeyDebounceExpiry,
      execCountAdvance, execJournalDayOpen, execProtectionDayOpen, execRequestRoute, execNoticeRaise, execPassageRecordTake,
      Debounce.isDue_iff]
    repeat' split
    all_goals simp_all [State.stands]

end Sys2Proof.Machine

open Sys2Proof Sys2Proof.Machine

/-- Settles O5. -/
theorem commandsAnswer : Obligations.CommandsAnswer :=
  ⟨fun c s => (exec_keeps c s).imp fun _ h => h.1, step_answers, fun _ _ h => exec_of_not_stands h⟩

/-- Settles O6. -/
theorem blocksKept : Obligations.BlocksKept := fun _ _ _ h => exec_frame h
end

section
set_option Elab.async false
/-! What a command can do to the rows of the pass table and to the product records: said once, and the laws of both derived from it (R1 to R19). -/
namespace Sys2Proof.Machine

/-- The two states hold the same rows, used-slot count and product records. -/
def State.RowsAs (t u : State) : Prop :=
  t.table.slots = u.table.slots ∧ t.table.usedSlots = u.table.usedSlots ∧ t.products = u.products

/-- What a row operation may write over the row that stands in a slot: a pending lane (R99, R115), a status (R13), a passage (R112), a
retirement (R158), a merged day (R170 to R172), or the fields of a PASS_PUT (R11). `pends` says whether the command may write a pending lane. -/
inductive State.Rewrites (s : State) (pends : Prop) (old : PassRow) : PassRow → Prop
  | pending (who : pends) (lane : Option LaneNo) : s.Rewrites pends old { old with pendingLane := lane }
  | status (st : PassStatus) (free : old.refund = none ∨ st = .retired) : s.Rewrites pends old { old with status := st }
  | passed {l : LaneNo} {slot head : Nat} {uid : Uid} {lift : LiftNo} {stamp : Stamp}
      (handed : RowOp.passage slot uid head lift stamp ∈ (s.lane l).rowOps) :
      s.Rewrites pends old (commitRow (s.product old.product) old lift stamp).1
  | retired (c : RefundCase) (row : c.row = old) : s.Rewrites pends old c.retiredRow
  | counted (d : Nat) (season : (s.product old.product).kind = .season) :
      s.Rewrites pends old { old with seasonDays := min 240 (old.seasonDays + 1), lastCountedDay := some d }
  | merged (d : Nat) (balance : Option Nat) (multiDay : (s.product old.product).kind = .multiDay) (day : d ≤ 239)
      (room : old.consumed.length < (s.product old.product).dayCount)
      (lowered : ∀ f b, old.refund = some f → balance = some b → b ≤ f.balancePerHead) : s.Rewrites pends old (mergedRow old d balance)
  | updated (f : PassForm) (uid : f.uid = old.uid) (accepted : f.refusal (s.product f.product) s.calendar.currentDay = none)
      (free : old.refund = none ∨ f.status = .retired)
      (joined : (s.product old.product).kind = .multiDay → (s.product f.product).kind = .multiDay →
        (unionDays old.consumed f.consumed).length ≤ (s.product f.product).dayCount) :
      s.Rewrites pends old (f.updatedRow old (s.product old.product).kind (s.product f.product).kind)

/-- The commands that may write a row's pending lane, or empty the row-operation list of a lane (R8, R66, R99, R115). -/
def settlesGrants : Instr → Bool
  | .validation _ | .closingRowOperation _ | .stationReset | .laneStationReset _ => true
  | _ => false

/-- What a command other than power-on reset can do to the rows and the product records. -/
inductive State.RowsChange (s : State) (pends : Prop) (t : State) : Prop
  | kept (rows : t.RowsAs s)
  | cleared (starting : s.trunk.partStatus = .starting) (slots : t.table.slots = []) (used : t.table.usedSlots = 0)
      (products : t.products = s.products)
  | released (who : pends) (rows : t.RowsAs { s with table := s.table.stationReset })
  | rewritten {slot : Nat} {old row : PassRow} (held : slotAt s.table.slots slot = some old) (writes : s.Rewrites pends old row)
      (rows : t.RowsAs ((s.writeRow slot row).moveCount old.product row.product))
  | inserted {slot : Nat} (f : PassForm) (ready : s.trunk.partStatus = .ready)
      (accepted : f.refusal (s.product f.product) s.calendar.currentDay = none) (fresh : lookup s.table.slots f.uid = none)
      (free : freeSlotFor s.table.slots f.uid = some slot) (rows : t.RowsAs (s.insertRow slot f.newRow))
  | deleted {slot : Nat} {row : PassRow} (held : slotAt s.table.slots slot = some row) (idle : row.pendingLane = none)
      (rows : t.RowsAs (s.deleteRow slot row))
  | productWritten {f : ProductForm} {kind : ProductKind} (legal : f.fieldsOk kind = true)
      (kindKept : (s.product f.code).isDefined = true → kind = (s.product f.code).kind)
      (grown : (s.product f.code).isDefined = true → kind = .multiDay → (s.product f.code).dayCount ≤ f.dayCount)
      (open' : s.protectionRefusal f.code = none)
      (rows : t.RowsAs (s.setProduct f.code (f.written kind (s.product f.code).rowCount)))
  | productCleared {code : ProductCode} (unused : (s.product code).rowCount = 0) (open' : s.protectionRefusal code = none)
      (rows : t.RowsAs (s.setProduct code Product.undefinedRecord))

/-! ### Each row operation by its cases -/

variable {pends : Prop}

theorem State.RowsAs.refl (s : State) : s.RowsAs s := ⟨rfl, rfl, rfl⟩

theorem State.RowsAs.trans {s t u : State} (h : s.RowsAs t) (k : t.RowsAs u) : s.RowsAs u := by
  simp_all [State.RowsAs]

theorem State.RowsChange.rows_right {s t u : State} (h : s.RowsChange pends t) (k : u.RowsAs t) : s.RowsChange pends u := by
  cases h with
  | kept rows => exact .kept (k.trans rows)
  | cleared starting slots used products => exact .cleared starting (k.1.trans slots) (k.2.1.trans used) (k.2.2.trans products)
  | released who rows => exact .released who (k.trans rows)
  | rewritten held writes rows => exact .rewritten held writes (k.trans rows)
  | inserted f ready accepted fresh free rows => exact .inserted f ready accepted fresh free (k.trans rows)
  | deleted held idle rows => exact .deleted held idle (k.trans rows)
  | productWritten legal kindKept grown open' rows => exact .productWritten legal kindKept grown open' (k.trans rows)
  | productCleared unused open' rows => exact .productCleared unused open' (k.trans rows)

/-- The same change, seen from another state that differs only in what is routed, in the arbiter, and in the commands that wait. -/
theorem State.RowsChange.served {s t : State} {routed : List Routed} {arbiter : Arbiter} {pending : List Instr}
    (h : State.RowsChange { s with routed := routed, arbiter := arbiter, pending := pending } pends t) : s.RowsChange pends t := by
  cases h with
  | kept rows => exact .kept rows
  | cleared starting slots used products => exact .cleared starting slots used products
  | released who rows => exact .released who rows
  | @rewritten slot old row held writes rows =>
    refine .rewritten (row := row) held ?_ (rows.trans (by simp only [State.moveCount]; split <;> exact ⟨rfl, rfl, rfl⟩))
    cases writes with
    | pending who lane => exact .pending who lane
    | status st free => exact .status st free
    | passed handed => exact .passed handed
    | retired c row => exact .retired c row
    | counted d season => exact .counted d season
    | merged d balance multiDay day room lowered => exact .merged d balance multiDay day room lowered
    | updated f uid accepted free joined => exact .updated f uid accepted free joined
  | inserted f ready accepted fresh free rows => exact .inserted f ready accepted fresh free rows
  | deleted held idle rows => exact .deleted held idle rows
  | productWritten legal kindKept grown open' rows => exact .productWritten legal kindKept grown open' rows
  | productCleared unused open' rows => exact .productCleared unused open' rows

/-- A rewrite that leaves the product code leaves the product records. -/
theorem State.RowsChange.written {s t : State} {slot : Nat} {old row : PassRow} (held : slotAt s.table.slots slot = some old)
    (writes : s.Rewrites pends old row) (same : row.product = old.product) (rows : t.RowsAs (s.writeRow slot row)) : s.RowsChange pends t :=
  .rewritten held writes (by rwa [State.moveCount, if_pos same.symm])

theorem State.rowOf_eq_some {s : State} {slot : Nat} {uid : Uid} {row : PassRow} :
    s.rowOf slot uid = some row ↔ slotAt s.table.slots slot = some row ∧ row.uid = uid := by
  simp only [State.rowOf]
  split
  · next r h =>
    split
    · next u => simp only [h, Option.some.injEq]; exact ⟨fun e => ⟨e, e ▸ u⟩, And.left⟩
    · next u => simp only [h, Option.some.injEq, reduceCtorEq, false_iff]; rintro ⟨rfl, e⟩; exact u e
  · next h => simp [h]

theorem State.rowsAs_cancelFor (s : State) (stored : PassRow) (st : PassStatus) : (s.cancelFor stored st).RowsAs s := by
  simp only [State.cancelFor]
  repeat' split
  all_goals exact ⟨rfl, rfl, rfl⟩

theorem State.rowsAs_answer (s : State) (p : Option Nat) (code : ReplyCode) (fields : List Byte) :
    (s.answer p code fields).RowsAs s := by simp [State.RowsAs]

theorem State.updateByPut_rows {s : State} {f : PassForm} {slot : Nat} {stored : PassRow}
    (found : lookup s.table.slots f.uid = some (slot, stored))
    (accepted : f.refusal (s.product f.product) s.calendar.currentDay = none) : s.RowsChange pends (s.updateByPut f slot stored).2 := by
  obtain ⟨held, uid, -⟩ := lookup_some found
  simp only [State.updateByPut]
  repeat' split
  · exact .kept (.refl s)
  · exact .kept (.refl s)
  · next bound fits =>
    refine .rewritten held (.updated f uid.symm accepted ?_ fun a b => ?_) (State.rowsAs_cancelFor ..)
    · simpa [imp_iff_not_or] using bound
    · exact not_lt.1 fun lt => fits ⟨a, b, lt⟩

theorem State.applyPut_rows {s : State} (f : PassForm) (ready : s.trunk.partStatus = .ready) : s.RowsChange pends (s.applyPut f).2 := by
  simp only [State.applyPut, State.putUnlessRefused]
  split
  · exact .kept (.refl s)
  · next accepted =>
    simp only [State.putRow]
    split
    · next fresh =>
      simp only [State.insertByPut]
      split
      · exact .kept (.refl s)
      · next slot free => exact .inserted f ready accepted fresh free (.refl _)
    · next slot stored found => exact State.updateByPut_rows found accepted

theorem State.applySetStatus_rows (s : State) (uid : Uid) (code : Nat) : s.RowsChange pends (s.applySetStatus uid code).2 := by
  simp only [State.applySetStatus]
  repeat' split
  · exact .kept (.refl s)
  · exact .kept (.refl s)
  · exact .kept (.refl s)
  · next _ st named _ slot row found =>
    obtain ⟨held, -, -⟩ := lookup_some found
    simp only [State.setStatus]
    repeat' split
    · exact .kept (.refl s)
    · exact .kept (.refl s)
    · next bound differs =>
      exact .written held (.status st (by simpa [imp_iff_not_or] using bound)) rfl (State.rowsAs_cancelFor ..)

theorem State.applyDelete_rows (s : State) (uid : Uid) : s.RowsChange pends (s.applyDelete uid).2 := by
  simp only [State.applyDelete]
  repeat' split
  · exact .kept (.refl s)
  · exact .kept (.refl s)
  · exact .kept (.refl s)
  · next slot row found idle =>
    obtain ⟨held, -, -⟩ := lookup_some found
    exact .deleted held (by simpa using idle) (.refl _)

theorem State.adjust_lowers {s : State} {row : PassRow} {d : Nat} {a : Adjusted} {j : Journal} {f : Refund}
    (h : s.adjust row d = .adjusted a j) (refund : row.refund = some f) : a.balance ≤ f.balancePerHead := by
  simp only [State.adjust, refund, State.lowerBalance] at h
  split at h
  · next lower =>
    split at h
    · cases h
    · cases h; exact lower.le
  · cases h

theorem State.mergeInsert_rows {s : State} {slot d : Nat} {row : PassRow} (held : slotAt s.table.slots slot = some row)
    (multiDay : (s.product row.product).kind = .multiDay) (day : d ≤ 239)
    (room : row.consumed.length < (s.product row.product).dayCount) : s.RowsChange pends (s.mergeInsert slot row d).state := by
  simp only [State.mergeInsert]
  split
  · exact .written held (.merged d none multiDay day room (by simp)) rfl (.refl _)
  · next a j adjusted =>
    refine .written held (.merged d (some a.balance) multiDay day room ?_) rfl (.refl _)
    rintro f b refund ⟨⟩
    exact State.adjust_lowers adjusted refund
  · exact .kept (.refl s)

theorem State.merge_rows (s : State) (uid : Uid) (d : Nat) : s.RowsChange pends (s.merge uid d).state := by
  simp only [State.merge]
  split
  · exact .kept (.refl s)
  · next slot row found =>
    have found : lookup s.table.slots uid = some (slot, row) := by
      split at found
      · simp at found
      · exact found
    obtain ⟨held, -, -⟩ := lookup_some found
    repeat' split
    · exact .kept (.refl s)
    · exact .kept (.refl s)
    · exact .kept (.refl s)
    · next season =>
      simp only [State.mergeSeason]
      split
      · exact .written held (.counted d season) rfl (.refl _)
      · exact .kept (.refl s)
    · next day _ _ _ multiDay =>
      simp only [State.mergeMultiDay]
      repeat' split
      · exact .kept (.refl s)
      · exact .kept (by simp [State.RowsAs, State.raiseOverconsumed])
      · next room => exact State.mergeInsert_rows held multiDay (not_lt.1 day) (not_le.1 room)

theorem State.valuePass_held {s : State} {uid : Uid} {c : RefundCase} (h : s.valuePass uid = .ok c) :
    slotAt s.table.slots c.slot = some c.row := by
  simp only [State.valuePass] at h
  split at h
  · cases h
  · split at h
    · cases h
    · next slot row found =>
      split at h
      · cases h
      · cases h; exact (lookup_some found).1

theorem State.applyRetire_rows (s : State) (uid : Uid) : s.RowsChange pends (s.applyRetire uid).2.2 := by
  simp only [State.applyRetire]
  split
  · exact .kept (.refl s)
  · next c valued =>
    split
    · exact .kept (.refl s)
    · simp only [State.retire]
      split
      · exact .kept (.refl s)
      · exact .written (State.valuePass_held valued) (.retired c rfl) rfl (.refl _)

theorem State.applyProductPut_rows (s : State) (f : ProductForm) : s.RowsChange pends (s.applyProductPut f).2 := by
  simp only [State.applyProductPut]
  repeat' split
  · exact .kept (.refl s)
  · exact .kept (.refl s)
  · exact .kept (.refl s)
  · exact .kept (.refl s)
  · exact .kept (.refl s)
  · next open' _ kind _ legal kindKept grown =>
    refine .productWritten (f := f) (kind := kind) (by simpa using legal) (fun d => ?_) (fun d m => ?_) open' (.refl _)
    · exact not_not.1 fun ne => kindKept ⟨d, ne⟩
    · exact not_lt.1 fun lt => grown ⟨d, m, lt⟩

theorem State.applyProductClear_rows (s : State) (code : ProductCode) : s.RowsChange pends (s.applyProductClear code).2 := by
  simp only [State.applyProductClear]
  repeat' split
  · exact .kept (.refl s)
  · exact .kept (.refl s)
  · exact .kept (.refl s)
  · next open' unused _ => exact .productCleared (by omega) open' (.refl _)

theorem State.commit_rows {s s' : State} {l : LaneNo} {slot head : Nat} {uid : Uid} {lift : LiftNo} {stamp : Stamp}
    (handed : RowOp.passage slot uid head lift stamp ∈ (s.lane l).rowOps) (same : s'.RowsAs s) :
    s.RowsChange pends (s'.commit l slot uid lift stamp) := by
  obtain ⟨slots, used, products⟩ := same
  simp only [State.commit]
  split
  · exact .kept ⟨slots, used, products⟩
  · next row found =>
    obtain ⟨held, -⟩ := State.rowOf_eq_some.1 found
    rw [State.product_ext products]
    refine .written (slots ▸ held) (.passed handed) ?_ (by simp [State.RowsAs, State.writeRow, State.handPassage, slots, used, products])
    simp only [commitRow, commitDay]
    repeat' split
    all_goals rfl

theorem State.closeRow_rows {s s' : State} (who : pends) (l : LaneNo) (slot : Nat) (uid : Uid) (same : s'.RowsAs s) :
    s.RowsChange pends (s'.closeRow l slot uid) := by
  obtain ⟨slots, used, products⟩ := same
  simp only [State.closeRow]
  repeat' split
  · exact .kept ⟨slots, used, products⟩
  · next row found _ =>
    obtain ⟨held, -⟩ := State.rowOf_eq_some.1 found
    exact .written (slots ▸ held) (.pending who none) rfl (by simp [State.RowsAs, State.writeRow, slots, used, products])
  · exact .kept ⟨slots, used, products⟩

theorem State.validate_rows {s s' : State} (who : pends) (l : LaneNo) (uid : Uid) (same : s'.RowsAs s) :
    s.RowsChange pends (s'.validate l uid) := by
  obtain ⟨slots, used, products⟩ := same
  simp only [State.validate, State.validateServed]
  repeat' split
  · exact .kept (by simp [State.RowsAs, slots, used, products])
  · exact .kept (by simp [State.RowsAs, slots, used, products])
  · next lift served slot row decided =>
    have held : slotAt s.table.slots slot = some row := by
      simp only [State.decision] at decided
      repeat' split at decided
      all_goals cases decided
      exact slots ▸ (lookup_some ‹_›).1
    exact .written held (.pending who (some l)) rfl
      (by simp [State.RowsAs, State.grantAt, State.laneEvent, State.writeRow, State.setLane, slots, used, products])
  · exact .kept (by simp [State.RowsAs, slots, used, products])
  · exact .kept (by simp [State.RowsAs, slots, used, products])

theorem State.sweepSlot_rows (s : State) : s.RowsChange pends s.sweepSlot := by
  simp only [State.sweepSlot]
  repeat' split
  · exact .kept (.refl s)
  · exact .kept (.refl s)
  · exact .kept (.refl s)
  · exact .kept (.refl s)
  · next row held _ idle _ => exact .deleted held (by simpa using idle) (.refl _)

theorem State.rowsAs_dropRowOp (s : State) (r : Requester) (l : LaneNo) : ((s.granted r).dropRowOp l).RowsAs s := ⟨rfl, rfl, rfl⟩

/-- What each command but power-on reset does to the rows and the product records. -/
theorem exec_rows {c : Instr} {s t : State} (h : exec c s = .next t) (on : c ≠ .powerOnReset)
    (who : settlesGrants c = true → pends) : s.RowsChange pends t := by
  by_cases still : Part.table ∉ Part.writtenBy c ∧ Part.products ∉ Part.writtenBy c
  · have table : t.table = s.table := exec_frame h .table still.1
    have products : t.products = s.products := exec_frame h .products still.2
    exact .kept (by simp [State.RowsAs, table, products])
  cases c
  case powerOnReset => exact absurd rfl on
  case memoryClearDone =>
    simp only [exec, execMemoryClearDone] at h
    split at h <;> cases h
    · exact .kept (.refl s)
    · next starting => exact .cleared starting rfl rfl rfl
  case stationReset =>
    simp only [exec, execStationReset] at h
    split at h <;> cases h
    · exact .kept (.refl s)
    · exact .released (who rfl) ⟨rfl, rfl, rfl⟩
  case noticeRaise source =>
    simp only [exec, execNoticeRaise] at h
    split at h <;> cases h
    · exact .kept (.refl s)
    · exact .kept (by cases source <;> exact ⟨rfl, rfl, rfl⟩)
  case passageRecordTake owner =>
    simp only [exec, execPassageRecordTake] at h
    split at h <;> cases h
    · exact .kept (.refl s)
    · exact .kept (by cases owner <;> exact ⟨rfl, rfl, rfl⟩)
  case passStatusCancellation l =>
    simp only [exec, execPassStatusCancellation] at h
    split at h <;> cases h
    · exact .kept (.refl s)
    · exact .kept ⟨rfl, rfl, rfl⟩
  case passPut =>
    simp only [exec, execPassPut] at h
    split at h <;> cases h
    · exact .kept (.refl s)
    · next r s' taken =>
      obtain ⟨grant, -, -, rfl⟩ := State.takePortRequest_eq_some.1 taken
      have ready : s.trunk.partStatus = .ready := State.nextGrant_ready grant
      have rows := State.applyPut_rows (pends := pends) (s := (s.granted .trunkOwners).dropNextFor r.owner) (passForm r.body) ready
      exact State.RowsChange.served (rows.rows_right (State.rowsAs_answer ..))
  case passSetStatus =>
    simp only [exec, execPassSetStatus] at h
    split at h <;> cases h
    · exact .kept (.refl s)
    · next r s' taken =>
      obtain ⟨-, -, -, rfl⟩ := State.takePortRequest_eq_some.1 taken
      exact State.RowsChange.served ((State.applySetStatus_rows ..).rows_right (State.rowsAs_answer ..))
  case passDelete =>
    simp only [exec, execPassDelete] at h
    split at h <;> cases h
    · exact .kept (.refl s)
    · next r s' taken =>
      obtain ⟨-, -, -, rfl⟩ := State.takePortRequest_eq_some.1 taken
      exact State.RowsChange.served ((State.applyDelete_rows ..).rows_right (State.rowsAs_answer ..))
  case usageMerge =>
    simp only [exec, execUsageMerge] at h
    split at h <;> cases h
    · exact .kept (.refl s)
    · next r s' taken =>
      obtain ⟨-, -, -, rfl⟩ := State.takePortRequest_eq_some.1 taken
      exact State.RowsChange.served ((State.merge_rows ..).rows_right (State.rowsAs_answer ..))
  case productPut =>
    simp only [exec, execProductPut] at h
    split at h <;> cases h
    · exact .kept (.refl s)
    · next r s' taken =>
      obtain ⟨-, -, -, rfl⟩ := State.takePortRequest_eq_some.1 taken
      exact State.RowsChange.served ((State.applyProductPut_rows ..).rows_right (State.rowsAs_answer ..))
  case productClear =>
    simp only [exec, execProductClear] at h
    split at h <;> cases h
    · exact .kept (.refl s)
    · next r s' taken =>
      obtain ⟨-, -, -, rfl⟩ := State.takePortRequest_eq_some.1 taken
      exact State.RowsChange.served ((State.applyProductClear_rows ..).rows_right (State.rowsAs_answer ..))
  case refundRetire =>
    simp only [exec, execRefundRetire] at h
    split at h
    · next bad =>
      obtain ⟨-, -, -, rfl⟩ := State.takeBadRefund_eq_some.1 bad
      split at h <;> cases h
      · exact .kept (State.rowsAs_answer ..)
      · exact .kept (.refl s)
    · split at h
      · cases h; exact .kept (.refl s)
      · next r s' taken =>
        obtain ⟨-, -, -, rfl⟩ := State.takePortRequest_eq_some.1 taken
        split at h <;> cases h
        · exact State.RowsChange.served ((State.applyRetire_rows ..).rows_right (State.rowsAs_answer ..))
        · exact .kept (.refl s)
  case streamChunkRow =>
    simp only [exec, execStreamChunkRow] at h
    split at h
    · next s' c granted _ =>
      obtain ⟨grant, rfl⟩ := State.grant_eq_some.1 granted
      split at h <;> cases h
      · exact .kept (.refl s)
      · next row _ _ =>
        have ready : s.trunk.partStatus = .ready := State.nextGrant_ready grant
        have rows := State.applyPut_rows (pends := pends) (s := s.granted .streamUnit) (s.stream.rowForm row) ready
        exact State.RowsChange.served (rows.rows_right (by simp [State.RowsAs]))
    · cases h; exact .kept (.refl s)
  case sweepStep =>
    simp only [exec, execSweepStep] at h
    split at h <;> cases h
    · exact .kept (.refl s)
    · next s' granted =>
      obtain ⟨-, rfl⟩ := State.grant_eq_some.1 granted
      exact State.RowsChange.served ((State.sweepSlot_rows _).rows_right ⟨rfl, rfl, rfl⟩)
  case validation l =>
    simp only [exec, execValidation] at h
    repeat' split at h
    all_goals cases h
    · exact .kept (.refl s)
    · next taken =>
      obtain ⟨-, -, rfl⟩ := State.takeRowOp_eq_some.1 taken
      exact State.validate_rows (who rfl) l _ (State.rowsAs_dropRowOp ..)
    · exact .kept (.refl s)
  case passageCommit l =>
    simp only [exec, execPassageCommit] at h
    repeat' split at h
    all_goals cases h
    · next taken _ =>
      obtain ⟨-, op, rfl⟩ := State.takeRowOp_eq_some.1 taken
      exact State.commit_rows (List.mem_of_mem_head? op) (State.rowsAs_dropRowOp ..)
    · exact .kept (.refl s)
    · exact .kept (.refl s)
  case headRecord l =>
    simp only [exec, execHeadRecord] at h
    repeat' split at h
    all_goals cases h
    · exact .kept (.refl s)
    · next taken _ =>
      obtain ⟨-, -, rfl⟩ := State.takeRowOp_eq_some.1 taken
      simp only [State.recordHead]
      split <;> exact .kept ⟨rfl, rfl, rfl⟩
    · exact .kept (.refl s)
  case closingRowOperation l =>
    simp only [exec, execClosingRowOperation] at h
    split at h <;> cases h
    · next taken =>
      obtain ⟨-, -, rfl⟩ := State.takeRowOp_eq_some.1 taken
      exact State.closeRow_rows (who rfl) l _ _ (State.rowsAs_dropRowOp ..)
    · exact .kept (.refl s)
  case config owner => cases owner <;> simp [Part.writtenBy] at still
  all_goals simp [Part.writtenBy] at still

/-- A step is a millisecond of the timebase, or the command at the front of the queue. -/
theorem step_cases {s t : State} (h : step s = .next t) :
    t = s.tick ∨ ∃ c rest, exec c { s with pending := rest } = .next t := by
  simp only [step] at h
  split at h
  · exact .inl (Host.Outcome.next.inj h).symm
  · next c rest _ => exact .inr ⟨c, rest, h⟩

/-- What a step does to the rows and the product records: those of power-on reset, or one of the changes. -/
theorem step_rows {s t : State} (h : step s = .next t) : t.RowsAs State.reset ∨ s.RowsChange True t := by
  rcases step_cases h with rfl | ⟨c, rest, h⟩
  · exact .inr (.kept ⟨rfl, rfl, rfl⟩)
  · by_cases on : c = .powerOnReset
    · subst on; cases h; exact .inl ⟨rfl, rfl, rfl⟩
    · exact .inr (State.RowsChange.served (exec_rows h on fun _ => trivial))

end Sys2Proof.Machine
end

section
set_option Elab.async false
/-! The laws of the pass table and of the product records, each kept by every step (R1 to R18). -/
namespace Sys2Proof.Machine

/-! ### Product records after a count -/

theorem State.countRow_product (s : State) (c d : ProductCode) :
    (s.countRow c).product d = { s.product d with rowCount := (s.product d).rowCount + if d = c then 1 else 0 } := by
  rw [State.countRow, State.setProduct_product]
  split
  · next h => subst h; rfl
  · rfl

theorem State.uncountRow_product (s : State) (c d : ProductCode) :
    (s.uncountRow c).product d = { s.product d with rowCount := (s.product d).rowCount - if d = c then 1 else 0 } := by
  rw [State.uncountRow, State.setProduct_product]
  split
  · next h => subst h; rfl
  · rfl

theorem State.moveCount_product (s : State) (old new c : ProductCode) :
    (s.moveCount old new).product c =
      { s.product c with rowCount := (s.product c).rowCount - (if c = old ∧ old ≠ new then 1 else 0)
          + if c = new ∧ old ≠ new then 1 else 0 } := by
  simp only [State.moveCount]
  split
  · next h => simp [h]
  · next h => simp [h, State.countRow_product, State.uncountRow_product]

theorem State.insertRow_product (s : State) (slot : Nat) (row : PassRow) (c : ProductCode) :
    (s.insertRow slot row).product c =
      { s.product c with rowCount := (s.product c).rowCount + if c = row.product then 1 else 0 } := State.countRow_product ..

theorem State.deleteRow_product (s : State) (slot : Nat) (row : PassRow) (c : ProductCode) :
    (s.deleteRow slot row).product c =
      { s.product c with rowCount := (s.product c).rowCount - if c = row.product then 1 else 0 } := State.uncountRow_product ..

theorem State.writeRow_slots (s : State) (slot : Nat) (row : PassRow) :
    (s.writeRow slot row).table.slots = putSlot s.table.slots slot row := rfl

theorem State.insertRow_slots (s : State) (slot : Nat) (row : PassRow) :
    (s.insertRow slot row).table.slots = putSlot s.table.slots slot row := rfl

theorem State.deleteRow_slots (s : State) (slot : Nat) (row : PassRow) :
    (s.deleteRow slot row).table.slots = freeSlot s.table.slots slot := rfl

/-! ### The slots as a collection of rows -/

theorem putSlot_perm {l : List (Nat × PassRow)} (wf : slotsWf l = true) (k : Nat) (row : PassRow) :
    (putSlot l k row).Perm ((k, row) :: freeSlot l k) := by
  rw [slotsWf_iff] at wf
  obtain ⟨rising, -⟩ := wf
  induction l with
  | nil => exact .refl _
  | cons a rest ih =>
    obtain ⟨j, r⟩ := a
    rw [List.pairwise_cons] at rising
    simp only [putSlot, freeSlot]
    split
    · next lt =>
      have away : freeSlot rest k = rest := by
        have : ∀ e ∈ rest, e.1 ≠ k := fun e he => by have := rising.1 e he; simp only at this; omega
        clear ih rising
        induction rest with
        | nil => rfl
        | cons b rest ih =>
          simp only [freeSlot]
          rw [if_neg (this b (by simp)), ih fun e he => this e (by simp [he])]
      rw [if_neg (by omega), away]
    · split
      · next eq => rw [if_pos eq.symm]
      · next ne => rw [if_neg (Ne.symm ne)]; exact ((ih rising.2).cons _).trans (.swap _ _ _)

theorem freeSlot_of_none {l : List (Nat × PassRow)} {k : Nat} (h : slotAt l k = none) : freeSlot l k = l := by
  induction l with
  | nil => rfl
  | cons a rest ih =>
    simp only [slotAt] at h
    split at h
    · cases h
    · next ne => simp only [freeSlot, if_neg ne, ih h]

theorem freeSlot_perm {l : List (Nat × PassRow)} {k : Nat} {row : PassRow} (h : slotAt l k = some row) :
    l.Perm ((k, row) :: freeSlot l k) := by
  induction l with
  | nil => cases h
  | cons a rest ih =>
    obtain ⟨j, r⟩ := a
    simp only [slotAt] at h
    simp only [freeSlot]
    split at h
    · next eq => cases h; rw [if_pos eq, eq]
    · next ne => rw [if_neg ne]; exact ((ih h).cons _).trans (.swap _ _ _)

/-! ### The form of the pass table -/

/-- The first three clauses of the table law, of the slots alone and by slot number. -/
def SlotsLaw (slots : List (Nat × PassRow)) : Prop :=
  slotsWf slots = true ∧ (∀ k row, slotAt slots k = some row → k / 8 = bucketOf row.uid ∧ row.uid ≠ 0)
    ∧ ∀ j k q row, slotAt slots j = some q → slotAt slots k = some row → q.uid = row.uid → j = k

theorem State.tableLaw_iff (s : State) :
    s.TableLaw ↔ SlotsLaw s.table.slots ∧ (s.trunk.partStatus = .starting → s.table.slots = []) := by
  constructor
  · rintro ⟨canonical, placed, once, clearing⟩
    refine ⟨⟨canonical, fun k row at' => placed (k, row) (mem_of_slotAt at'), fun j k q row hq hr uid => ?_⟩, clearing⟩
    exact congrArg Prod.fst (once (j, q) (mem_of_slotAt hq) (k, row) (mem_of_slotAt hr) uid)
  · rintro ⟨⟨canonical, placed, once⟩, clearing⟩
    refine ⟨canonical, fun e he => placed _ _ (slotAt_of_mem canonical he), fun e he f hf uid => ?_, clearing⟩
    have he := slotAt_of_mem canonical he
    have hf := slotAt_of_mem canonical hf
    have slot : e.1 = f.1 := once _ _ _ _ he hf uid
    rw [slot, hf] at he
    exact Prod.ext slot (Option.some.inj he).symm

theorem slotsLaw_nil : SlotsLaw [] := ⟨rfl, by simp [slotAt], by simp [slotAt]⟩

theorem SlotsLaw.putSlot {slots : List (Nat × PassRow)} (h : SlotsLaw slots) {slot : Nat} {row : PassRow}
    (place : slot / 8 = bucketOf row.uid) (named : row.uid ≠ 0)
    (only : ∀ k q, slotAt slots k = some q → q.uid = row.uid → k = slot) : SlotsLaw (putSlot slots slot row) := by
  obtain ⟨wf, placed, once⟩ := h
  refine ⟨slotsWf_putSlot wf (slot_lt_of_bucket place) row, fun k q at' => ?_, fun j k p q hp hq uid => ?_⟩
  · rw [slotAt_putSlot] at at'
    split at at'
    · next eq => cases at'; exact ⟨eq ▸ place, named⟩
    · exact placed k q at'
  · rw [slotAt_putSlot] at hp hq
    split at hp <;> split at hq
    · omega
    · next hj _ => cases hp; rw [hj, only k q hq uid.symm]
    · next hk => cases hq; rw [hk, only j p hp uid]
    · exact once j k p q hp hq uid

theorem SlotsLaw.freeSlot {slots : List (Nat × PassRow)} (h : SlotsLaw slots) (slot : Nat) : SlotsLaw (freeSlot slots slot) := by
  obtain ⟨wf, placed, once⟩ := h
  have sub : ∀ k q, slotAt (Machine.freeSlot slots slot) k = some q → slotAt slots k = some q := fun k q at' => by
    rw [slotAt_freeSlot wf] at at'
    split at at'
    · cases at'
    · exact at'
  exact ⟨slotsWf_freeSlot wf slot, fun k q hq => placed k q (sub k q hq),
    fun j k p q hp hq => once j k p q (sub j p hp) (sub k q hq)⟩

theorem slotAt_map (slots : List (Nat × PassRow)) (f : PassRow → PassRow) (k : Nat) :
    slotAt (slots.map fun e => (e.1, f e.2)) k = (slotAt slots k).map f := by
  induction slots with
  | nil => rfl
  | cons e rest ih =>
    simp only [List.map_cons, slotAt]
    split
    · rfl
    · exact ih

theorem SlotsLaw.map {slots : List (Nat × PassRow)} (h : SlotsLaw slots) {f : PassRow → PassRow} (uid : ∀ r, (f r).uid = r.uid) :
    SlotsLaw (slots.map fun e => (e.1, f e.2)) := by
  obtain ⟨wf, placed, once⟩ := h
  refine ⟨?_, fun k q hq => ?_, fun j k p q hp hq same => ?_⟩
  · rw [slotsWf_iff] at wf ⊢
    exact ⟨List.pairwise_map.2 wf.1, fun e he => by obtain ⟨a, ha, rfl⟩ := List.mem_map.1 he; exact wf.2 a ha⟩
  · rw [slotAt_map, Option.map_eq_some_iff] at hq
    obtain ⟨r, hr, rfl⟩ := hq
    rw [uid]; exact placed k r hr
  · rw [slotAt_map, Option.map_eq_some_iff] at hp hq
    obtain ⟨p, hp, rfl⟩ := hp
    obtain ⟨q, hq, rfl⟩ := hq
    rw [uid, uid] at same
    exact once j k p q hp hq same

theorem State.Rewrites.uid_eq {s : State} {pends : Prop} {old row : PassRow} (h : s.Rewrites pends old row) : row.uid = old.uid := by
  cases h with
  | passed handed =>
    simp only [commitRow, commitDay]
    repeat' split
    all_goals rfl
  | retired c held => exact held ▸ rfl
  | _ => rfl

theorem PassForm.uid_ne_zero {f : PassForm} {p : Product} {current : Option Nat} (h : f.refusal p current = none) : f.uid ≠ 0 := by
  simp only [PassForm.refusal] at h
  split at h
  · cases h
  · next ok => simp only [PassForm.fieldsOk] at ok; simp_all

theorem State.RowsChange.slotsLaw {s t : State} {pends : Prop} (h : s.RowsChange pends t) (law : SlotsLaw s.table.slots) : SlotsLaw t.table.slots := by
  obtain ⟨wf, placed, once⟩ := law
  cases h with
  | kept rows => exact rows.1 ▸ ⟨wf, placed, once⟩
  | cleared starting slots used products => exact slots ▸ slotsLaw_nil
  | released _ rows => exact rows.1 ▸ SlotsLaw.map (f := fun r => { r with pendingLane := none }) ⟨wf, placed, once⟩ fun _ => rfl
  | @rewritten slot old row held writes rows =>
    rw [rows.1, State.moveCount_table, State.writeRow_slots]
    refine SlotsLaw.putSlot ⟨wf, placed, once⟩ ?_ ?_ fun k q hq uid => ?_
    · rw [writes.uid_eq]; exact (placed slot old held).1
    · rw [writes.uid_eq]; exact (placed slot old held).2
    · exact once k slot q old hq held (uid.trans writes.uid_eq)
  | @inserted slot f ready accepted fresh free rows =>
    obtain ⟨empty, place⟩ := freeSlotFor_some free
    rw [rows.1, State.insertRow_slots]
    refine SlotsLaw.putSlot ⟨wf, placed, once⟩ place (PassForm.uid_ne_zero accepted) fun k q hq uid => ?_
    exact absurd uid (lookup_none fresh (by rw [(placed k q hq).1, uid]; rfl) hq)
  | @deleted slot row held idle rows => exact rows.1 ▸ SlotsLaw.freeSlot ⟨wf, placed, once⟩ slot
  | productWritten legal kindKept grown open' rows => exact rows.1 ▸ ⟨wf, placed, once⟩
  | productCleared unused open' rows => exact rows.1 ▸ ⟨wf, placed, once⟩

theorem State.RowsChange.slots_nil {s t : State} {pends : Prop} (h : s.RowsChange pends t) (starting : s.trunk.partStatus = .starting)
    (empty : s.table.slots = []) : t.table.slots = [] := by
  cases h with
  | kept rows => exact rows.1.trans empty
  | cleared starting slots used products => exact slots
  | released _ rows => simp [rows.1, PassTable.stationReset, empty]
  | rewritten held writes rows => simp [empty, slotAt] at held
  | inserted f ready accepted fresh free rows => simp [starting] at ready
  | deleted held idle rows => simp [empty, slotAt] at held
  | productWritten legal kindKept grown open' rows => exact rows.1.trans empty
  | productCleared unused open' rows => exact rows.1.trans empty

/-! ### The part status (R7, R190) -/

@[simp] theorem TrunkPort.placeNotice_partStatus (t : TrunkPort) (n : Raise) : (t.placeNotice n).partStatus = t.partStatus := rfl
@[simp] theorem TrunkPort.setCondition_partStatus (t : TrunkPort) (c : Condition) (x : NoticeCondition) :
    (t.setCondition c x).partStatus = t.partStatus := rfl
@[simp] theorem TrunkPort.send_partStatus (t : TrunkPort) (frame : List Byte) (o : Occupied) :
    (t.send frame o).partStatus = t.partStatus := rfl
@[simp] theorem TrunkPort.awaitOwners_partStatus (t : TrunkPort) (p : Option Nat) (n : Nat) :
    (t.awaitOwners p n).partStatus = t.partStatus := rfl

@[simp] theorem TrunkPort.takeRaise_partStatus (t : TrunkPort) (r : Raise) : (t.takeRaise r).partStatus = t.partStatus := by
  simp only [TrunkPort.takeRaise]; split <;> rfl

@[simp] theorem TrunkPort.raiseRestarted_partStatus (t : TrunkPort) : t.raiseRestarted.partStatus = t.partStatus := by
  simp only [TrunkPort.raiseRestarted]; split <;> rfl

@[simp] theorem TrunkPort.stationReset_partStatus (t : TrunkPort) (r : Option Tag) : (t.stationReset r).partStatus = t.partStatus :=
  TrunkPort.raiseRestarted_partStatus _

@[simp] theorem TrunkPort.receive_partStatus (t : TrunkPort) (f : RxFrame) : (t.receive f).partStatus = t.partStatus := by
  simp only [TrunkPort.receive]; split <;> rfl

@[simp] theorem TrunkPort.sent_partStatus (t : TrunkPort) : t.sent.partStatus = t.partStatus := by
  simp only [TrunkPort.sent]; repeat' split
  all_goals rfl

@[simp] theorem TrunkPort.setMask_partStatus (t : TrunkPort) (c : Condition) (m : Bool) : (t.setMask c m).partStatus = t.partStatus := by
  simp only [TrunkPort.setMask]; split <;> rfl

@[simp] theorem TrunkPort.setMasks_partStatus (t : TrunkPort) (flags : Nat) : (t.setMasks flags).partStatus = t.partStatus := by
  simp [TrunkPort.setMasks, allConditions]

@[simp] theorem State.route_partStatus (s : State) (f : RxFrame) : (s.route f).trunk.partStatus = s.trunk.partStatus := by
  simp only [State.route]; repeat' split
  all_goals rfl

@[simp] theorem State.transmitNext_partStatus (s : State) : s.transmitNext.trunk.partStatus = s.trunk.partStatus := by
  simp only [State.transmitNext]; repeat' split
  all_goals rfl

@[simp] theorem State.setRaises_partStatus (s : State) (source : RaiseSource) (rest : List Raise) :
    (s.setRaises source rest).trunk.partStatus = s.trunk.partStatus := by cases source <;> rfl

@[simp] theorem State.latchRaise_partStatus (s : State) (r : Raise) : (s.latchRaise r).trunk.partStatus = s.trunk.partStatus :=
  TrunkPort.takeRaise_partStatus ..

@[simp] theorem State.startReset_partStatus (s : State) (r : Option Tag) : (s.startReset r).trunk.partStatus = s.trunk.partStatus :=
  TrunkPort.stationReset_partStatus ..

@[simp] theorem State.handSettings_partStatus (s : State) (r : Routed) : (s.handSettings r).trunk.partStatus = s.trunk.partStatus := rfl

@[simp] theorem State.afterRow_partStatus (s : State) (c : Chunk) : (s.afterRow c).trunk.partStatus = s.trunk.partStatus := by
  simp only [State.afterRow]; split <;> simp

/-- Only power-on reset and the end of the memory clear change the part status. -/
theorem exec_partStatus {c : Instr} {s t : State} (h : exec c s = .next t) (on : c ≠ .powerOnReset) (clear : c ≠ .memoryClearDone) :
    t.trunk.partStatus = s.trunk.partStatus := by
  by_cases still : Part.trunk ∉ Part.writtenBy c
  · exact congrArg TrunkPort.partStatus (exec_frame h .trunk still)
  have answers : Answers (fun u => u.trunk.partStatus = s.trunk.partStatus) (exec c s) := by
    cases c
    case powerOnReset => exact absurd rfl on
    case memoryClearDone => exact absurd rfl clear
    case passPut | passSetStatus | passDelete | passRead | usageMerge | productPut | productClear | refundQuote | refundRetire =>
      simp only [exec, execPassPut, execPassSetStatus, execPassDelete, execPassRead, execUsageMerge, execProductPut, execProductClear,
        execRefundQuote, execRefundRetire]
      repeat' split
      all_goals simp_all [State.takePortRequest_eq_some, State.takeBadRefund_eq_some]
    case streamOpen | streamData | streamSuspend | streamResume | streamClose | streamAbort | streamChunkRow =>
      simp only [exec, execStreamOpen, execStreamData, execStreamSuspend, execStreamResume, execStreamClose, execStreamAbort,
        execStreamChunkRow]
      repeat' split
      all_goals simp_all [State.takeStreamRequest_eq_some, State.grant_eq_some]
    case productRead | protectSet | dayOpen | dayClose | time | calendarPut | calendarRead | laneRelease | laneLock | laneFaultClear
        | laneConfig | laneRead | liftConfig | liftRead | journalAck | journalReplay | journalRead | status | restart | noticeMask
        | noticeAck =>
      simp only [exec, execProductRead, execProtectSet, execDayOpen, execDayClose, execTime, execCalendarPut, execCalendarRead,
        execLaneRelease, execLaneLock, State.takeMode, execLaneFaultClear, execLaneConfig, execLaneRead, execLiftConfig,
        execLiftRead, execJournalAck, execJournalReplay, execJournalRead, execStatus, execRestart, execNoticeMask, execNoticeAck]
      repeat' split
      all_goals simp_all [State.takeRequest_eq_some]
    case config owner =>
      cases owner <;> simp only [exec, execConfig, State.laneSettings, State.payoutSetting, State.thresholdSetting, State.markSettings]
        <;> split <;> simp_all [State.takeRequest_eq_some]
    case stationReset | cabinetResetLine | trunkFrameReceive | requestRoute | transmitFrame | noticeRaise =>
      simp only [exec, execStationReset, execCabinetResetLine, execTrunkFrameReceive, execRequestRoute, execTransmitFrame,
        execNoticeRaise]
      repeat' split
      all_goals simp_all
    case passageRecordTake owner => cases owner <;> simp [Part.writtenBy] at still
    all_goals simp [Part.writtenBy] at still
  obtain ⟨u, hu, same⟩ := answers
  exact Host.Outcome.next.inj (h.symm.trans hu) ▸ same

/-- A part that is STARTING after a step was so before it, or has just been powered on. -/
theorem step_starting {s t : State} (h : step s = .next t) (starting : t.trunk.partStatus = .starting) :
    s.trunk.partStatus = .starting ∨ t.table.slots = [] := by
  rcases step_cases h with rfl | ⟨c, rest, h⟩
  · exact .inl starting
  by_cases on : c = .powerOnReset
  · subst on; cases h; exact .inr rfl
  by_cases clear : c = .memoryClearDone
  · subst clear
    simp only [exec, execMemoryClearDone] at h
    split at h
    · cases h; exact .inl starting
    · cases h; cases starting
  · exact .inl ((exec_partStatus h on clear).symm.trans starting)

theorem step_tableLaw {s t : State} (law : s.TableLaw) (h : step s = .next t) : t.TableLaw := by
  rw [State.tableLaw_iff] at law ⊢
  obtain ⟨form, clearing⟩ := law
  rcases step_rows h with reset | change
  · have empty : t.table.slots = [] := reset.1
    exact ⟨empty ▸ slotsLaw_nil, fun _ => empty⟩
  · refine ⟨change.slotsLaw form, fun starting => ?_⟩
    exact (step_starting h starting).elim (fun before => change.slots_nil before (clearing before)) id

/-! ### The counts -/

theorem State.CountLaw.of_rowsAs {s t : State} (h : t.RowsAs s) (law : s.CountLaw) : t.CountLaw := by
  obtain ⟨slots, used, products⟩ := h
  refine ⟨by rw [used, slots]; exact law.used, fun c => ?_⟩
  rw [State.product_ext products, slots]
  exact law.rows c

theorem countP_cons_product (c : ProductCode) (k : Nat) (row : PassRow) (rest : List (Nat × PassRow)) :
    ((k, row) :: rest).countP (fun e => decide (e.2.product = c))
      = rest.countP (fun e => decide (e.2.product = c)) + if c = row.product then 1 else 0 := by
  simp [List.countP_cons, eq_comm]

theorem State.CountLaw.rewritten {s : State} (law : s.CountLaw) (wf : slotsWf s.table.slots = true) {slot : Nat} {old : PassRow}
    (held : slotAt s.table.slots slot = some old) (row : PassRow) :
    ((s.writeRow slot row).moveCount old.product row.product).CountLaw := by
  have before := freeSlot_perm held
  have after := putSlot_perm wf slot row
  refine ⟨?_, fun c => ?_⟩
  · have used := law.used
    simp only [State.moveCount_table, State.writeRow_slots, after.length_eq, List.length_cons]
    rw [before.length_eq, List.length_cons] at used
    exact used
  · have rows := law.rows c
    rw [before.countP_eq, countP_cons_product] at rows
    rw [State.moveCount_table, State.writeRow_slots, after.countP_eq, countP_cons_product, State.moveCount_product]
    simp only [State.product_ext (State.writeRow_products s slot row), rows]
    by_cases same : old.product = row.product
    · simp [same]
    · by_cases h1 : c = old.product <;> by_cases h2 : c = row.product <;> simp_all

theorem State.CountLaw.inserted {s : State} (law : s.CountLaw) (wf : slotsWf s.table.slots = true) {slot : Nat}
    (free : slotAt s.table.slots slot = none) (row : PassRow) : (s.insertRow slot row).CountLaw := by
  have after := freeSlot_of_none free ▸ putSlot_perm wf slot row
  refine ⟨?_, fun c => ?_⟩
  · rw [State.insertRow_slots, after.length_eq, List.length_cons, ← law.used]; rfl
  · rw [State.insertRow_slots, after.countP_eq, countP_cons_product, State.insertRow_product, ← law.rows c]

theorem State.CountLaw.deleted {s : State} (law : s.CountLaw) {slot : Nat} {row : PassRow}
    (held : slotAt s.table.slots slot = some row) : (s.deleteRow slot row).CountLaw := by
  have before := freeSlot_perm held
  refine ⟨?_, fun c => ?_⟩
  · have used := law.used
    rw [before.length_eq, List.length_cons] at used
    exact Nat.sub_eq_of_eq_add used
  · have rows := law.rows c
    rw [before.countP_eq, countP_cons_product] at rows
    rw [State.deleteRow_slots, State.deleteRow_product, rows]
    exact Nat.add_sub_cancel ..

theorem State.CountLaw.setProduct {s : State} (law : s.CountLaw) {code : ProductCode} {p : Product}
    (same : p.rowCount = (s.product code).rowCount) : (s.setProduct code p).CountLaw := by
  refine ⟨law.used, fun c => ?_⟩
  rw [State.setProduct_product, State.setProduct_table, ← law.rows c]
  split
  · next h => subst h; exact same
  · rfl

theorem State.CountLaw.released {s : State} (law : s.CountLaw) : State.CountLaw { s with table := s.table.stationReset } := by
  refine ⟨law.used.trans (List.length_map _).symm, fun c => (law.rows c).trans ?_⟩
  simp only [PassTable.stationReset, List.countP_map]
  rfl

theorem State.reset_countLaw : State.reset.CountLaw := by
  refine ⟨rfl, fun c => ?_⟩
  simp [State.reset, State.product, PassTable.powerOn, Product.undefinedRecord]

theorem step_countLaw {s t : State} (table : s.TableLaw) (law : s.CountLaw) (h : step s = .next t) : t.CountLaw := by
  rcases step_rows h with reset | change
  · exact .of_rowsAs reset State.reset_countLaw
  cases change with
  | kept rows => exact .of_rowsAs rows law
  | cleared starting slots used products =>
    refine ⟨by rw [used, slots]; rfl, fun c => ?_⟩
    rw [State.product_ext products, law.rows c, table.clearing starting, slots]
  | released _ rows => exact .of_rowsAs rows law.released
  | rewritten held writes rows => exact .of_rowsAs rows (law.rewritten table.canonical held _)
  | inserted f ready accepted fresh free rows => exact .of_rowsAs rows (law.inserted table.canonical (freeSlotFor_some free).1 _)
  | deleted held idle rows => exact .of_rowsAs rows (law.deleted held)
  | productWritten legal kindKept grown open' rows => exact .of_rowsAs rows (law.setProduct rfl)
  | productCleared unused open' rows => exact .of_rowsAs rows (law.setProduct unused.symm)

/-! ### Refunds -/

/-- What the refund law says of one row. -/
def refundFits (row : PassRow) : Prop := ∀ f, row.refund = some f → row.status = .retired ∧ f.balancePerHead ≤ f.paidPerHead

theorem State.Rewrites.refundFits {s : State} {pends : Prop} {old row : PassRow} (h : s.Rewrites pends old row) (fits : refundFits old) :
    refundFits row := by
  cases h with
  | pending who lane => exact fits
  | status st free =>
    intro f refund
    rcases free with none | rfl
    · exact absurd (none.symm.trans refund) (by simp)
    · exact ⟨rfl, (fits f refund).2⟩
  | passed handed =>
    simp only [commitRow, commitDay]
    repeat' split
    all_goals exact fits
  | retired c held => rintro f ⟨⟩; exact ⟨rfl, le_rfl⟩
  | counted d season => exact fits
  | merged d balance multiDay day room lowered =>
    intro f refund
    cases balance with
    | none => exact fits f refund
    | some b =>
      obtain ⟨g, hg, rfl⟩ := Option.map_eq_some_iff.1 refund
      exact ⟨(fits g hg).1, (lowered g b hg rfl).trans (fits g hg).2⟩
  | updated f uid accepted free joined =>
    intro g refund
    rcases free with none | retired
    · exact absurd (none.symm.trans refund) (by simp)
    · exact ⟨retired, (fits g refund).2⟩

theorem State.RefundLaw.of_rowsAs {s t : State} (h : t.RowsAs s) (law : s.RefundLaw) : t.RefundLaw := by
  unfold State.RefundLaw; rw [h.1]; exact law

theorem step_refundLaw {s t : State} (law : s.RefundLaw) (h : step s = .next t) : t.RefundLaw := by
  rcases step_rows h with reset | change
  · exact .of_rowsAs reset (by intro e he; cases he)
  cases change with
  | kept rows => exact .of_rowsAs rows law
  | cleared starting slots used products => unfold State.RefundLaw; rw [slots]; simp
  | released _ rows =>
    refine .of_rowsAs rows fun e he => ?_
    obtain ⟨d, hd, rfl⟩ := List.mem_map.1 he
    exact law d hd
  | rewritten held writes rows =>
    refine .of_rowsAs rows fun e he => ?_
    rw [State.moveCount_table, State.writeRow_slots] at he
    rcases mem_putSlot he with rfl | he
    · exact writes.refundFits (law _ (mem_of_slotAt held))
    · exact law e he
  | inserted f ready accepted fresh free rows =>
    refine .of_rowsAs rows fun e he => ?_
    rcases mem_putSlot he with rfl | he
    · rintro g ⟨⟩
    · exact law e he
  | deleted held idle rows => exact .of_rowsAs rows fun e he => law e ((freeSlot_sublist ..).subset he)
  | productWritten legal kindKept grown open' rows => exact .of_rowsAs rows law
  | productCleared unused open' rows => exact .of_rowsAs rows law

/-! ### Product records -/

theorem ProductForm.written_legal {f : ProductForm} {kind : ProductKind} (legal : f.fieldsOk kind = true) (rowCount : Nat) :
    (f.written kind rowCount).Legal := by
  intro _
  simp only [ProductForm.fieldsOk, Bool.and_eq_true, decide_eq_true_eq] at legal
  cases kind <;> simp_all [ProductForm.written]

theorem State.ProductLaw.setProduct {s : State} (law : s.ProductLaw) {code : ProductCode} {p : Product} (legal : p.Legal) :
    (s.setProduct code p).ProductLaw := by
  intro c
  rw [State.setProduct_product]
  split
  · exact legal
  · exact law c

theorem Product.undefinedRecord_legal : Product.undefinedRecord.Legal := by intro h; cases h

theorem State.ProductLaw.of_rowsAs {s t : State} (h : t.RowsAs s) (law : s.ProductLaw) : t.ProductLaw := fun c => by
  rw [State.product_ext h.2.2]; exact law c

theorem State.reset_productLaw : State.reset.ProductLaw := fun c => by
  have : State.reset.product c = Product.undefinedRecord := by simp [State.reset, State.product]
  rw [this]; exact Product.undefinedRecord_legal

theorem step_productLaw {s t : State} (law : s.ProductLaw) (h : step s = .next t) : t.ProductLaw := by
  rcases step_rows h with reset | change
  · exact .of_rowsAs reset State.reset_productLaw
  cases change with
  | kept rows => exact .of_rowsAs rows law
  | cleared starting slots used products => exact fun c => by rw [State.product_ext products]; exact law c
  | released _ rows => exact .of_rowsAs rows law
  | rewritten held writes rows => exact .of_rowsAs rows fun c => by rw [State.moveCount_product]; exact law c
  | inserted f ready accepted fresh free rows => exact .of_rowsAs rows fun c => by rw [State.insertRow_product]; exact law c
  | deleted held idle rows => exact .of_rowsAs rows fun c => by rw [State.deleteRow_product]; exact law c
  | productWritten legal kindKept grown open' rows => exact .of_rowsAs rows (law.setProduct (ProductForm.written_legal legal _))
  | productCleared unused open' rows => exact .of_rowsAs rows (law.setProduct Product.undefinedRecord_legal)

/-! ### Day lists -/

theorem rowFits_multiDay {p : Product} {row : PassRow} (kind : p.kind = .multiDay) : rowFits p row ↔
    p.isDefined = true ∧ ascending row.consumed = true ∧ row.consumed.length ≤ p.dayCount ∧ ∀ d ∈ row.consumed, d ≤ 239 := by
  simp [rowFits, kind]

theorem rowFits_season {p : Product} {row : PassRow} (kind : p.kind = .season) :
    rowFits p row ↔ p.isDefined = true ∧ row.consumed = [] := by
  simp [rowFits, kind]

theorem rowFits_congr {p q : Product} {row other : PassRow} (isDefined : q.isDefined = p.isDefined) (kind : q.kind = p.kind)
    (dayCount : q.dayCount = p.dayCount) (consumed : other.consumed = row.consumed) : rowFits q other ↔ rowFits p row := by
  simp only [rowFits, isDefined, kind, dayCount, consumed]

/-- A MULTI_DAY row with room takes a day 0 to 239. -/
theorem rowFits_insertDay {p : Product} {row other : PassRow} {d : Nat} (kind : p.kind = .multiDay) (fits : rowFits p row)
    (day : d ≤ 239) (room : row.consumed.length < p.dayCount) (consumed : other.consumed = insertDay d row.consumed) :
    rowFits p other := by
  obtain ⟨isDefined, asc, -, days⟩ := (rowFits_multiDay kind).1 fits
  refine (rowFits_multiDay kind).2 ⟨isDefined, ?_, ?_, fun e he => ?_⟩
  · rw [consumed]; exact ascending_insertDay asc d
  · rw [consumed]; exact (length_insertDay_le d _).trans room
  · rw [consumed, mem_insertDay] at he
    rcases he with rfl | he
    · exact day
    · exact days e he

theorem commitRow_fits {p : Product} {row : PassRow} (fits : rowFits p row) (lift : LiftNo) {stamp : Stamp}
    (day : ∀ d, stamp.day = some d → d ≤ 239) : rowFits p (commitRow p row lift stamp).1 := by
  simp only [commitRow]
  split
  · exact fits
  · next d stamped =>
    refine (rowFits_congr (row := (commitDay p row d).1) rfl rfl rfl rfl).2 ?_
    simp only [commitDay]
    repeat' split
    · exact fits
    · next kind _ room => exact rowFits_insertDay kind fits (day d stamped) room rfl
    · exact fits
    · exact fits
    · exact fits

/-- What the checks of a PASS_PUT let through fits the product it names. -/
theorem PassForm.fits {f : PassForm} {p : Product} {current : Option Nat} (h : f.refusal p current = none) :
    p.isDefined = true ∧ (p.kind = .season → f.consumed = []) ∧ (p.kind = .multiDay → f.consumed.length ≤ p.dayCount)
      ∧ ascending f.consumed = true ∧ ∀ d ∈ f.consumed, d ≤ 239 := by
  simp only [PassForm.refusal] at h
  split at h
  · cases h
  next fields =>
  split at h
  · cases h
  next isDefined =>
  split at h
  · cases h
  next fitted =>
  split at h
  · cases h
  next long =>
  simp only [PassForm.fieldsOk, Bool.not_eq_true, Bool.not_eq_false', Bool.and_eq_true, List.all_eq_true, decide_eq_true_eq] at fields
  obtain ⟨⟨_, days⟩, asc⟩ := fields
  refine ⟨by simpa using isDefined, fun kind => ?_, fun kind => ?_, asc, days⟩
  · simp only [PassForm.fitsProduct, kind, Bool.not_eq_true, Bool.not_eq_false', Bool.and_eq_true, List.isEmpty_iff] at fitted
    exact fitted.2
  · exact not_lt.1 fun lt => long ⟨kind, lt⟩

/-- What a PASS_PUT makes of a held row fits the product it names. -/
theorem PassForm.updatedRow_fits {f : PassForm} {p q : Product} {old : PassRow} {current : Option Nat} (fits : rowFits p old)
    (accepted : f.refusal q current = none)
    (joined : p.kind = .multiDay → q.kind = .multiDay → (unionDays old.consumed f.consumed).length ≤ q.dayCount) :
    rowFits q (f.updatedRow old p.kind q.kind) := by
  obtain ⟨isDefined, season, short, asc, days⟩ := PassForm.fits accepted
  cases given : q.kind with
  | season => exact (rowFits_season given).2 ⟨isDefined, by simpa [PassForm.updatedRow] using season given⟩
  | multiDay =>
    rw [rowFits_multiDay given]
    cases stored : p.kind with
    | season => exact ⟨isDefined, by simpa [PassForm.updatedRow] using ⟨asc, short given, days⟩⟩
    | multiDay =>
      obtain ⟨-, oldAsc, -, oldDays⟩ := (rowFits_multiDay stored).1 fits
      have row : (f.updatedRow old .multiDay .multiDay).consumed = unionDays old.consumed f.consumed := by simp [PassForm.updatedRow]
      rw [row]
      refine ⟨isDefined, ascending_unionDays oldAsc, joined stored given, fun d hd => ?_⟩
      rcases (mem_unionDays ..).1 hd with hd | hd
      · exact oldDays d hd
      · exact days d hd

theorem State.Rewrites.fits {s : State} {pends : Prop} {old row : PassRow} (h : s.Rewrites pends old row) (law : s.ListLaw)
    (fits : rowFits (s.product old.product) old) : rowFits (s.product row.product) row := by
  cases h with
  | pending who lane => exact fits
  | status st free => exact fits
  | @passed l slot head uid lift stamp handed =>
    have same : (commitRow (s.product old.product) old lift stamp).1.product = old.product := by
      simp only [commitRow, commitDay]
      repeat' split
      all_goals rfl
    rw [same]
    exact commitRow_fits fits lift fun d => law.stamps l slot uid head lift stamp d handed
  | retired c held => subst held; exact fits
  | counted d season => exact (rowFits_congr rfl rfl rfl rfl).2 fits
  | merged d balance multiDay day room lowered => exact rowFits_insertDay multiDay fits day room rfl
  | updated f uid accepted free joined => exact PassForm.updatedRow_fits fits accepted joined

/-- Every row of the table fits the product it names. -/
def State.RowsFit (s : State) : Prop := ∀ e ∈ s.table.slots, rowFits (s.product e.2.product) e.2

theorem State.RowsFit.of_rowsAs {s t : State} (h : t.RowsAs s) (fits : s.RowsFit) : t.RowsFit := by
  intro e he
  rw [h.1] at he
  rw [State.product_ext h.2.2]
  exact fits e he

/-- A product without rows may be written, and one with rows while it stays defined, of its kind, and as many days. -/
theorem State.RowsFit.setProduct {s : State} (fits : s.RowsFit) {code : ProductCode} {p : Product}
    (named : ∀ e ∈ s.table.slots, e.2.product = code → rowFits (s.product code) e.2 → rowFits p e.2) :
    (s.setProduct code p).RowsFit := by
  intro e he
  rw [State.setProduct_product]
  split
  · next h => exact named e he h (h ▸ fits e he)
  · exact fits e he

theorem step_rowsFit {s t : State} (counts : s.CountLaw) (law : s.ListLaw) (h : step s = .next t) : t.RowsFit := by
  have fits : s.RowsFit := law.fits
  rcases step_rows h with reset | change
  · exact .of_rowsAs reset (by intro e he; cases he)
  cases change with
  | kept rows => exact .of_rowsAs rows fits
  | cleared starting slots used products => intro e he; rw [slots] at he; cases he
  | released _ rows =>
    refine .of_rowsAs rows fun e he => ?_
    obtain ⟨d, hd, rfl⟩ := List.mem_map.1 he
    exact fits d hd
  | @rewritten slot old row held writes rows =>
    refine .of_rowsAs rows fun e he => ?_
    rw [State.moveCount_product]
    refine (rowFits_congr (p := s.product e.2.product) (row := e.2) rfl rfl rfl rfl).2 ?_
    rw [State.moveCount_table, State.writeRow_slots] at he
    rcases mem_putSlot he with rfl | he
    · exact writes.fits law (fits _ (mem_of_slotAt held))
    · exact fits e he
  | @inserted slot f ready accepted fresh free rows =>
    refine .of_rowsAs rows fun e he => ?_
    rw [State.insertRow_product]
    refine (rowFits_congr (p := s.product e.2.product) (row := e.2) rfl rfl rfl rfl).2 ?_
    rcases mem_putSlot he with rfl | he
    · obtain ⟨isDefined, season, short, asc, days⟩ := PassForm.fits accepted
      cases kind : (s.product f.product).kind with
      | season => exact (rowFits_season kind).2 ⟨isDefined, season kind⟩
      | multiDay => exact (rowFits_multiDay kind).2 ⟨isDefined, asc, short kind, days⟩
    · exact fits e he
  | deleted held idle rows =>
    refine .of_rowsAs rows fun e he => ?_
    rw [State.deleteRow_product]
    refine (rowFits_congr (p := s.product e.2.product) (row := e.2) rfl rfl rfl rfl).2 ?_
    exact fits e ((freeSlot_sublist ..).subset he)
  | @productWritten f kind legal kindKept grown open' rows =>
    refine .of_rowsAs rows (fits.setProduct fun e he named old => ?_)
    obtain rfl := kindKept old.1
    cases kind : (s.product f.code).kind with
    | season => exact (rowFits_season rfl).2 ⟨rfl, ((rowFits_season kind).1 old).2⟩
    | multiDay =>
      obtain ⟨isDefined, asc, short, days⟩ := (rowFits_multiDay kind).1 old
      exact (rowFits_multiDay rfl).2 ⟨rfl, asc, short.trans (grown isDefined kind), days⟩
  | @productCleared code unused open' rows =>
    refine .of_rowsAs rows (fits.setProduct fun e he named old => ?_)
    have none := (counts.rows code).symm.trans unused
    rw [List.countP_eq_zero] at none
    exact absurd (decide_eq_true named) (none e he)

/-! ### The protection (R22, R24) -/

/-- A covered product's record cannot be written in LOCKED, its row count apart. -/
theorem State.RowsChange.covered {s t : State} {pends : Prop} (h : s.RowsChange pends t) (locked : s.protection.mode = .locked)
    {code : ProductCode} (covers : s.protection.covers code.val = true) : ∃ n, t.product code = { s.product code with rowCount := n } := by
  have refused {c : ProductCode} (passes : s.protectionRefusal c = none) : code ≠ c := by
    rintro rfl
    simp [State.protectionRefusal, covers, locked] at passes
  cases h with
  | kept rows => exact ⟨_, State.product_ext rows.2.2 code⟩
  | cleared starting slots used products => exact ⟨_, State.product_ext products code⟩
  | released _ rows => exact ⟨_, State.product_ext rows.2.2 code⟩
  | rewritten held writes rows => exact ⟨_, (State.product_ext rows.2.2 code).trans (State.moveCount_product ..)⟩
  | inserted f ready accepted fresh free rows => exact ⟨_, (State.product_ext rows.2.2 code).trans (State.insertRow_product ..)⟩
  | deleted held idle rows => exact ⟨_, (State.product_ext rows.2.2 code).trans (State.deleteRow_product ..)⟩
  | productWritten legal kindKept grown open' rows =>
    exact ⟨_, (State.product_ext rows.2.2 code).trans (State.setProduct_product_other _ _ (refused open'))⟩
  | productCleared unused open' rows =>
    exact ⟨_, (State.product_ext rows.2.2 code).trans (State.setProduct_product_other _ _ (refused open'))⟩

/-- In LOCKED a PROTECT_SET changes nothing of the protection (R25). -/
theorem execProtectSet_locked {s t : State} (h : execProtectSet s = .next t) (locked : s.protection.mode = .locked) :
    t.protection = s.protection := by
  simp only [execProtectSet] at h
  split at h
  · cases h; rfl
  · next r s' taken =>
    obtain ⟨-, -, rfl⟩ := State.takeRequest_eq_some.1 taken
    cases h
    rw [State.answer_protection]
    simp only [State.applyProtectSet, State.dropNextFor_protection, locked]
    repeat' split
    all_goals rfl

theorem exec_locked_protection {c : Instr} {s t : State} (h : exec c s = .next t) (locked : s.protection.mode = .locked)
    (on : c ≠ .powerOnReset) (open' : c ≠ .protectionDayOpen) : t.protection = s.protection := by
  by_cases set : c = .protectSet
  · subst set; exact execProtectSet_locked h locked
  · refine exec_frame h .protection ?_
    cases c
    case config owner => cases owner <;> simp [Part.writtenBy]
    case noticeRaise source => cases source <;> simp [Part.writtenBy]
    case passageRecordTake owner => cases owner <;> simp [Part.writtenBy]
    all_goals simp_all [Part.writtenBy]

theorem execProtectionDayOpen_protection {s t : State} (h : execProtectionDayOpen s = .next t) (locked : s.protection.mode = .locked) :
    t.protection = s.protection ∨ t.protection = { s.protection with mode := .keyed } := by
  simp only [execProtectionDayOpen] at h
  split at h <;> cases h
  · exact .inl rfl
  · exact .inr (if_pos locked)

end Sys2Proof.Machine

open Sys2Proof Sys2Proof.Machine

/-- Settles O8. -/
theorem tableLawKept : Obligations.TableLawKept := fun _ _ => step_tableLaw

/-- Settles O9. -/
theorem countLawKept : Obligations.CountLawKept := fun _ _ => step_countLaw

/-- Settles O11. -/
theorem refundLawKept : Obligations.RefundLawKept := fun _ _ => step_refundLaw

/-- Settles O12. -/
theorem productLawKept : Obligations.ProductLawKept := fun _ _ => step_productLaw

/-- Settles O18. -/
theorem lockedProtectionHolds : Obligations.LockedProtectionHolds := by
  intro c s t locked on h
  refine ⟨fun code => (exec_rows h on fun _ => trivial).covered (pends := True) locked,
    exec_locked_protection h locked on, ?_⟩
  rintro rfl
  exact execProtectionDayOpen_protection h locked
end

section
set_option Elab.async false
/-! The single-row requests of the pass table, each as its checks and its effect leave the state (R9 to R14). -/
namespace Sys2Proof.Machine

/-! ### What a request presented at the table port answers -/

theorem State.Presents.take {s : State} {k : RequestKind} {r : Routed} (h : s.Presents k r) :
    s.takePortRequest k = some (r, s.served r) := State.takePortRequest_of h.1 h.2.1 h.2.2

@[simp] theorem State.served_table (s : State) (r : Routed) : (s.served r).table = s.table := rfl
@[simp] theorem State.served_products (s : State) (r : Routed) : (s.served r).products = s.products := rfl
@[simp] theorem State.served_product (s : State) (r : Routed) (c : ProductCode) : (s.served r).product c = s.product c := rfl
@[simp] theorem State.served_calendar (s : State) (r : Routed) : (s.served r).calendar = s.calendar := rfl
@[simp] theorem State.served_trunk (s : State) (r : Routed) : (s.served r).trunk = s.trunk := rfl
@[simp] theorem State.served_protection (s : State) (r : Routed) : (s.served r).protection = s.protection := rfl
@[simp] theorem State.served_serviceKey (s : State) (r : Routed) : (s.served r).serviceKey = s.serviceKey := rfl

/-- What an operation answers, in the place of its request. -/
def State.replied (place : Option Nat) (o : ReplyCode × State) : State := o.2.answer place o.1 []

@[simp] theorem State.replied_mk (place : Option Nat) (code : ReplyCode) (t : State) :
    State.replied place (code, t) = t.answer place code [] := rfl

theorem exec_passPut {s : State} {r : Routed} (h : s.Presents .passPut r) :
    exec .passPut s = .next (State.replied r.place ((s.served r).applyPut (passForm r.body))) := by
  simp [exec, execPassPut, h.take, State.replied]

theorem exec_passSetStatus {s : State} {r : Routed} (h : s.Presents .passSetStatus r) :
    exec .passSetStatus s
      = .next (State.replied r.place ((s.served r).applySetStatus (uidField r.body 0) (field r.body 8 1))) := by
  simp [exec, execPassSetStatus, h.take, State.replied]

theorem exec_passDelete {s : State} {r : Routed} (h : s.Presents .passDelete r) :
    exec .passDelete s = .next (State.replied r.place ((s.served r).applyDelete (uidField r.body 0))) := by
  simp [exec, execPassDelete, h.take, State.replied]

/-! ### The checks of a PASS_PUT (R9) -/

theorem passStatusOf_isSome {n : Nat} : (passStatusOf n).isSome = true ↔ n ≤ 2 := by
  match n with
  | 0 | 1 | 2 => simp [passStatusOf]
  | n + 3 => simp [passStatusOf]

theorem OptionalField.ok_eq_false {x : OptionalField} {high : Nat} :
    x.ok high = false ↔ 1 < x.presence ∨ (x.presence = 1 ∧ high < x.value) := by
  simp only [OptionalField.ok, isFlag, Bool.and_eq_false_iff, Bool.or_eq_false_iff, decide_eq_false_iff_not]
  omega

theorem PassForm.fieldsOk_eq_false {f : PassForm} : f.fieldsOk = false ↔
    f.uid = 0 ∨ passStatusOf f.statusCode = none ∨ f.headcount < 1 ∨ 30 < f.headcount ∨ 999999 < f.price
      ∨ 1 < f.expiry.presence ∨ (f.expiry.presence = 1 ∧ 239 < f.expiry.value) ∨ 240 < f.seasonDays
      ∨ 1 < f.lastCounted.presence ∨ (f.lastCounted.presence = 1 ∧ 239 < f.lastCounted.value) ∨ 14 < f.listLength
      ∨ (∃ d ∈ f.consumed, 239 < d) ∨ ascending f.consumed = false := by
  simp only [PassForm.fieldsOk, Bool.and_eq_false_iff, OptionalField.ok_eq_false, decide_eq_false_iff_not, List.all_eq_false,
    Option.isSome_eq_false_iff, Option.isNone_iff_eq_none, not_not, not_and_or, not_le, decide_eq_true_eq, or_assoc]

theorem PassForm.fitsProduct_eq_false {f : PassForm} {p : Product} : f.fitsProduct p = false ↔
    (p.groupAllowed = false ∧ 1 < f.headcount) ∨ (p.kind = .season ∧ f.consumed ≠ [])
      ∨ (p.kind = .multiDay ∧ (f.seasonDays ≠ 0 ∨ f.lastCounted.get ≠ none)) := by
  simp only [PassForm.fitsProduct, Bool.and_eq_false_iff, Bool.or_eq_false_iff, decide_eq_false_iff_not, not_le]
  cases p.kind <;> simp [Option.isNone_eq_false_iff, Option.isSome_iff_ne_none, imp_iff_not_or]

/-- Check 5 of R9 refuses a day that is after the current one. -/
theorem any_afterCurrent (days : List Nat) (last : Option Nat) (current : Option Nat) :
    (days.any (afterCurrent current) || last.any (afterCurrent current)) = true ↔
      ∃ c, current = some c ∧ ((∃ d ∈ days, c < d) ∨ ∃ d, last = some d ∧ c < d) := by
  cases current <;> cases last <;> simp [afterCurrent]

section
variable {f : PassForm} {p : Product} {current : Option Nat}

theorem PassForm.refusal_badField (h : f.fieldsOk = false) : f.refusal p current = some .badField := by
  simp [PassForm.refusal, h]

theorem PassForm.refusal_noProduct (ok : f.fieldsOk = true) (h : p.isDefined = false) : f.refusal p current = some .noProduct := by
  simp [PassForm.refusal, ok, h]

theorem PassForm.refusal_unfit (ok : f.fieldsOk = true) (isDefined : p.isDefined = true) (h : f.fitsProduct p = false) :
    f.refusal p current = some .badField := by
  simp [PassForm.refusal, ok, isDefined, h]

theorem PassForm.refusal_overconsumed (ok : f.fieldsOk = true) (isDefined : p.isDefined = true) (fits : f.fitsProduct p = true)
    (kind : p.kind = .multiDay) (h : p.dayCount < f.consumed.length) : f.refusal p current = some .overconsumed := by
  simp [PassForm.refusal, ok, isDefined, fits, kind, h]

/-- Past its first four checks, R9 refuses a form exactly when one of its days is still to come. -/
theorem PassForm.refusal_of_room (ok : f.fieldsOk = true) (isDefined : p.isDefined = true) (fits : f.fitsProduct p = true)
    (room : p.kind = .season ∨ f.consumed.length ≤ p.dayCount) :
    f.refusal p current
      = if f.consumed.any (afterCurrent current) || f.lastCounted.get.any (afterCurrent current) then some .futureDay else none := by
  have full : ¬ (p.kind = .multiDay ∧ p.dayCount < f.consumed.length) := by
    rintro ⟨kind, h⟩
    rcases room with season | room
    · simp [kind] at season
    · omega
  simp only [PassForm.refusal, ok, isDefined, fits, if_neg full]
  rfl

theorem PassForm.refusal_futureDay (ok : f.fieldsOk = true) (isDefined : p.isDefined = true) (fits : f.fitsProduct p = true)
    (room : p.kind = .season ∨ f.consumed.length ≤ p.dayCount) {c : Nat} (today : current = some c)
    (h : (∃ d ∈ f.consumed, c < d) ∨ ∃ d, f.lastCounted.get = some d ∧ c < d) : f.refusal p current = some .futureDay := by
  rw [PassForm.refusal_of_room ok isDefined fits room, if_pos ((any_afterCurrent ..).2 ⟨c, today, h⟩)]

theorem PassForm.refusal_eq_none (ok : f.fieldsOk = true) (isDefined : p.isDefined = true) (fits : f.fitsProduct p = true)
    (room : p.kind = .season ∨ f.consumed.length ≤ p.dayCount)
    (past : ∀ c, current = some c → (∀ d ∈ f.consumed, d ≤ c) ∧ ∀ d, f.lastCounted.get = some d → d ≤ c) : f.refusal p current = none := by
  rw [PassForm.refusal_of_room ok isDefined fits room, if_neg]
  rw [any_afterCurrent]
  rintro ⟨c, today, ⟨d, listed, late⟩ | ⟨d, last, late⟩⟩
  · have := (past c today).1 d listed; omega
  · have := (past c today).2 d last; omega

end

theorem State.applyPut_refused {s : State} {f : PassForm} {code : ReplyCode}
    (h : f.refusal (s.product f.product) s.calendar.currentDay = some code) : s.applyPut f = (code, s) := by
  simp [State.applyPut, State.putUnlessRefused, h]

theorem State.applyPut_accepted {s : State} {f : PassForm} (h : f.refusal (s.product f.product) s.calendar.currentDay = none) :
    s.applyPut f = s.putRow f := by simp [State.applyPut, State.putUnlessRefused, h]

/-! ### The room in a bucket (R2) -/

theorem freeSlotFor_none {l : List (Nat × PassRow)} {uid : Uid} : freeSlotFor l uid = none ↔
    ∀ k, k / 8 = bucketOf uid → slotAt l k ≠ none := by
  simp only [freeSlotFor, List.find?_eq_none, mem_bucketSlots, Option.isNone_iff_eq_none, ne_eq]

/-- The slots of a bucket are looked at in rising order. -/
theorem bucketSlots_ascending (bucket : Nat) : (bucketSlots bucket).Pairwise (· < ·) :=
  List.Pairwise.map _ (fun _ _ h => Nat.add_lt_add_left h _) List.pairwise_lt_range

theorem freeSlotFor_lowest {l : List (Nat × PassRow)} {uid : Uid} {slot : Nat} (h : freeSlotFor l uid = some slot) {k : Nat}
    (lower : k < slot) (bucket : k / 8 = bucketOf uid) : slotAt l k ≠ none := by
  obtain ⟨-, before, after, split, taken⟩ := List.find?_eq_some_iff_append.1 h
  have ordered := split ▸ bucketSlots_ascending (bucketOf uid)
  have listed : k ∈ before ++ slot :: after := split ▸ mem_bucketSlots.2 bucket
  have notAfter : k ∉ slot :: after := fun m => by
    rcases List.mem_cons.1 m with rfl | m
    · omega
    · have := (List.pairwise_cons.1 (List.pairwise_append.1 ordered).2.1).1 k m; omega
  simpa [Option.isSome_iff_ne_none] using taken k ((List.mem_append.1 listed).resolve_right notAfter)

/-! ### Lookup and bucket (R1, R2) -/

theorem bucketOf_eq (uid : Uid) : bucketOf uid =
    ((uid.toNat / 281474976710656) ^^^ (uid.toNat / 4294967296 % 65536) ^^^ (uid.toNat / 65536 % 65536) ^^^ (uid.toNat % 65536)) % 8192 := by
  have top : uid.toNat / 281474976710656 % 65536 = uid.toNat / 281474976710656 := Nat.mod_eq_of_lt (by have := uid.isLt; omega)
  simp [bucketOf, Nat.shiftRight_eq_div_pow, top]

theorem lookup_eq_none_iff {l : List (Nat × PassRow)} {uid : Uid} : lookup l uid = none ↔
    ∀ slot row, slot / 8 = bucketOf uid → slotAt l slot = some row → row.uid ≠ uid := by
  refine ⟨fun h _ _ bucket held => lookup_none h bucket held, fun h => ?_⟩
  rw [lookup, List.findSome?_eq_none_iff]
  intro slot listed
  have := h slot
  split
  · next row held => rw [if_neg (this row (mem_bucketSlots.1 listed) held)]
  · rfl

section
variable {s : State} (law : s.TableLaw)
include law

theorem State.TableLaw.lookup_eq {slot : Nat} {row : PassRow} (held : slotAt s.table.slots slot = some row) :
    lookup s.table.slots row.uid = some (slot, row) := by
  obtain ⟨⟨-, homes, once⟩, -⟩ := (State.tableLaw_iff s).1 law
  cases found : lookup s.table.slots row.uid with
  | none => exact absurd rfl (lookup_none found (homes slot row held).1 held)
  | some e =>
    obtain ⟨k, other⟩ := e
    obtain ⟨there, same, -⟩ := lookup_some found
    obtain rfl := once k slot other row there held same
    simp_all

theorem State.TableLaw.lookup_zero : lookup s.table.slots 0 = none := by
  obtain ⟨⟨-, homes, -⟩, -⟩ := (State.tableLaw_iff s).1 law
  exact lookup_eq_none_iff.2 fun slot row _ held => (homes slot row held).2

theorem State.TableLaw.lookup_freed {uid : Uid} {slot : Nat} {row : PassRow} (h : lookup s.table.slots uid = some (slot, row)) :
    lookup (freeSlot s.table.slots slot) uid = none := by
  obtain ⟨⟨wf, -, once⟩, -⟩ := (State.tableLaw_iff s).1 law
  obtain ⟨held, carries, -⟩ := lookup_some h
  refine lookup_eq_none_iff.2 fun k other _ there same => ?_
  rw [slotAt_freeSlot wf] at there
  split at there
  · simp at there
  · next away => exact away (once k slot other row there held (same.trans carries.symm))

end

/-! ### What a PASS_PUT writes (R10, R11) -/

theorem PassForm.status_of {f : PassForm} {st : PassStatus} (h : passStatusOf f.statusCode = some st) : f.status = st := by
  simp [PassForm.status, h]

section
variable {s : State} {f : PassForm}

theorem State.putRow_inserts {slot : Nat} (free : lookup s.table.slots f.uid = none) (room : freeSlotFor s.table.slots f.uid = some slot) :
    s.putRow f = (.ok, s.insertRow slot f.newRow) := by simp [State.putRow, State.insertByPut, free, room]

theorem State.putRow_full (free : lookup s.table.slots f.uid = none) (full : freeSlotFor s.table.slots f.uid = none) :
    s.putRow f = (.bucketFull, s) := by simp [State.putRow, State.insertByPut, free, full]

theorem State.putRow_held {slot : Nat} {old : PassRow} (held : lookup s.table.slots f.uid = some (slot, old)) :
    s.putRow f = s.updateByPut f slot old := by simp [State.putRow, held]

variable {slot : Nat} {old : PassRow}

theorem State.updateByPut_retired (refund : old.refund ≠ none) (status : f.status ≠ .retired) :
    s.updateByPut f slot old = (.retiredLocal, s) := by
  simp [State.updateByPut, Option.isSome_iff_ne_none, refund, status]

theorem State.updateByPut_overconsumed (free : old.refund = none ∨ f.status = .retired)
    (stored : (s.product old.product).kind = .multiDay) (given : (s.product f.product).kind = .multiDay)
    (full : (s.product f.product).dayCount < (unionDays old.consumed f.consumed).length) :
    s.updateByPut f slot old = (.overconsumed, s) := by
  have stays : ¬ (old.refund.isSome ∧ f.status ≠ .retired) := by rcases free with h | h <;> simp [h]
  simp [State.updateByPut, if_neg stays, stored, given, full]

theorem State.updateByPut_ok (free : old.refund = none ∨ f.status = .retired)
    (room : (s.product old.product).kind = .multiDay → (s.product f.product).kind = .multiDay →
      (unionDays old.consumed f.consumed).length ≤ (s.product f.product).dayCount) :
    s.updateByPut f slot old
      = (.ok, ((s.writeRow slot (f.updatedRow old (s.product old.product).kind (s.product f.product).kind)).moveCount old.product
          f.product).cancelFor old f.status) := by
  have stays : ¬ (old.refund.isSome ∧ f.status ≠ .retired) := by rcases free with h | h <;> simp [h]
  have fits : ¬ ((s.product old.product).kind = .multiDay ∧ (s.product f.product).kind = .multiDay
      ∧ (s.product f.product).dayCount < (unionDays old.consumed f.consumed).length) := fun ⟨h, k, full⟩ => by
    have := room h k; omega
  simp only [State.updateByPut, if_neg stays, if_neg fits]

end

/-! ### PASS_SET_STATUS and PASS_DELETE (R13, R14) -/

theorem passStatusOf_eq_none {n : Nat} : passStatusOf n = none ↔ 2 < n := by
  rw [← Option.not_isSome_iff_eq_none, passStatusOf_isSome, not_le]

theorem State.applySetStatus_held {s : State} {uid : Uid} {code slot : Nat} {st : PassStatus} {row : PassRow} (legal : uid ≠ 0)
    (named : passStatusOf code = some st) (held : lookup s.table.slots uid = some (slot, row)) :
    s.applySetStatus uid code = s.setStatus slot row st := by
  rw [State.applySetStatus, if_neg legal]; simp [named, held]

theorem State.applyDelete_held {s : State} {uid : Uid} {slot : Nat} {row : PassRow} (legal : uid ≠ 0)
    (held : lookup s.table.slots uid = some (slot, row)) :
    s.applyDelete uid = if row.pendingLane.isSome then (.passBusy, s) else (.ok, s.deleteRow slot row) := by
  rw [State.applyDelete, if_neg legal]; simp [held]

end Sys2Proof.Machine

open Sys2Proof Sys2Proof.Machine

/-- Settles O33: past its checks the form's row goes into the slot the search of the bucket finds, and only there. -/
theorem passPutInserts : Obligations.PassPutInserts := by
  rintro s r f st slot presents rfl named accepted free room
  obtain ⟨empty, bucket⟩ := freeSlotFor_some room
  refine ⟨⟨bucket, empty, fun k lower => freeSlotFor_lowest room lower⟩, _, fun k => slotAt_putSlot s.table.slots slot k _, ?_⟩
  rw [exec_passPut presents, State.applyPut_accepted (s := s.served r) accepted, State.putRow_inserts (s := s.served r) free room, ← PassForm.status_of named]
  rfl

/-- Settles O34, by the checks of R9 that need the stored row, and then by the three ways two product kinds join (R11). -/
theorem passPutUpdates : Obligations.PassPutUpdates := by
  refine ⟨?_, fun _ _ rising => ⟨ascending_unionDays rising, fun _ => mem_unionDays _ _ _⟩⟩
  rintro s r f st slot old presents rfl named accepted held
  rw [exec_passPut presents, State.applyPut_accepted (s := s.served r) accepted, State.putRow_held (s := s.served r) held]
  obtain rfl := PassForm.status_of named
  refine ⟨fun refund status => ?_, fun free => ⟨fun stored given full => ?_, ?_⟩⟩
  · rw [State.updateByPut_retired refund status]; rfl
  · rw [State.updateByPut_overconsumed (s := s.served r) free stored given full]; rfl
  intro row uid product status heads price expiry generation passage pending refund kinds
  have room : (s.product old.product).kind = .multiDay → (s.product (passForm r.body).product).kind = .multiDay →
      (unionDays old.consumed (passForm r.body).consumed).length ≤ (s.product (passForm r.body).product).dayCount := by
    intro stored given
    rcases kinds with ⟨-, -, fits, -⟩ | ⟨season, -⟩ | ⟨differ, -⟩
    · exact fits
    · simp [stored] at season
    · exact absurd (stored.trans given.symm) differ
  have written : row
      = (passForm r.body).updatedRow old (s.product old.product).kind (s.product (passForm r.body).product).kind := by
    cases row
    rcases kinds with ⟨stored, given, -, days⟩ | ⟨stored, given, days⟩ | ⟨differ, days⟩
    · simp_all [PassForm.updatedRow]
    · simp_all [PassForm.updatedRow]
    · have notBoth (k : ProductKind) : ¬ ((s.product old.product).kind = k ∧ (s.product (passForm r.body).product).kind = k) :=
        fun ⟨h, h'⟩ => differ (h.trans h'.symm)
      simp only [PassForm.updatedRow, if_neg (notBoth .multiDay), if_neg (notBoth .season)]
      simp_all
  rw [State.updateByPut_ok (s := s.served r) free room, written]
  rfl

/-- Settles O35: each check is one equation of `PassForm.refusal`, the last that of a full bucket. -/
theorem passPutRefused : Obligations.PassPutRefused := by
  refine ⟨fun _ => rfl, fun _ => rfl, fun x => ⟨fun h => by simp [OptionalField.get, h], fun h => by simp [OptionalField.get, h]⟩, rfl,
    fun n => passStatusOf_eq_none.2, ?_⟩
  rintro s r f p presents rfl rfl
  have refused {code : ReplyCode}
      (h : (passForm r.body).refusal (s.product (passForm r.body).product) s.calendar.currentDay = some code) :
      exec .passPut s = .next ((s.served r).answer r.place code []) := by
    rw [exec_passPut presents, State.applyPut_refused (s := s.served r) h]; rfl
  refine ⟨fun bad => refused (PassForm.refusal_badField (PassForm.fieldsOk_eq_false.2 bad)), fun ok =>
    ⟨fun undefined => refused (PassForm.refusal_noProduct ok undefined), fun isDefined =>
    ⟨fun unfit => refused (PassForm.refusal_unfit ok isDefined (PassForm.fitsProduct_eq_false.2 unfit)), fun fits =>
    ⟨fun kind full => refused (PassForm.refusal_overconsumed ok isDefined fits kind full), fun room =>
    ⟨fun c today late => refused (PassForm.refusal_futureDay ok isDefined fits room today late), fun past free full => ?_⟩⟩⟩⟩⟩
  rw [exec_passPut presents, State.applyPut_accepted (s := s.served r) (PassForm.refusal_eq_none ok isDefined fits room past),
    State.putRow_full (s := s.served r) free (freeSlotFor_none.2 full)]
  rfl

/-- Settles O36, by the checks of R13 in order. -/
theorem passStatusSet : Obligations.PassStatusSet := by
  rintro s r uid presents rfl
  rw [exec_passSetStatus presents]
  refine ⟨fun bad => ?_, fun st legal named => ⟨fun free => ?_, fun slot row held => ?_⟩⟩
  · rcases bad with zero | unnamed
    · simp [State.applySetStatus, zero]
    · simp [State.applySetStatus, passStatusOf_eq_none.2 unnamed]
  · rw [State.applySetStatus, if_neg legal]; simp [named, free]
  rw [State.applySetStatus_held (s := s.served r) legal named held]
  refine ⟨fun refund status => ?_, fun free => ⟨fun same => ?_, fun changed => ?_⟩⟩
  · simp [State.setStatus, Option.isSome_iff_ne_none, refund, status]
  · have stays : ¬ (row.refund.isSome ∧ st ≠ .retired) := by rcases free with h | h <;> simp [h]
    rw [State.setStatus, if_neg stays, if_pos same]; rfl
  · have stays : ¬ (row.refund.isSome ∧ st ≠ .retired) := by rcases free with h | h <;> simp [h]
    obtain ⟨-, carries, -⟩ := lookup_some held
    rw [State.setStatus, if_neg stays, if_neg changed, ← carries]
    cases pending : row.pendingLane with
    | none => simp [State.cancelFor, pending, State.writeRow]
    | some l =>
      by_cases active : st = .active
      · simp [State.cancelFor, pending, State.writeRow, active]
      · simp [State.cancelFor, pending, State.writeRow, active, changed, State.handCancellation]

/-- Settles O37: the checks of R14, and what a lookup finds in a table in form (R2). -/
theorem passDeleted : Obligations.PassDeleted := by
  refine ⟨?_, bucketOf_eq, fun s uid => ⟨fun slot row held => ?_, lookup_eq_none_iff, fun law => ⟨?_, law.lookup_zero⟩⟩⟩
  · rintro s r uid presents rfl
    rw [exec_passDelete presents]
    refine ⟨fun zero => by simp [State.applyDelete, zero], fun legal free => by rw [State.applyDelete, if_neg legal]; simp [free],
      fun slot row legal held => ?_⟩
    rw [State.applyDelete_held (s := s.served r) legal held]
    refine ⟨fun busy => by simp [Option.isSome_iff_ne_none, busy], fun idle => ⟨_, ?_, fun law => ⟨?_, law.lookup_freed held⟩⟩⟩
    · rw [idle]; rfl
    · exact slotAt_freeSlot law.canonical slot
  · obtain ⟨there, carries, bucket⟩ := lookup_some held
    exact ⟨bucket, there, carries⟩
  · rintro slot row held rfl
    exact law.lookup_eq held
end

section
set_option Elab.async false
/-! The product table: PRODUCT_PUT, PRODUCT_CLEAR and what protects them (R18, R19, R22 to R25). -/
namespace Sys2Proof.Machine

/-! ### Protection (R22, R24) -/

theorem Protection.covers_inside {p : Protection} (code : Nat) (h : p.sense = .inside) :
    p.covers code = true ↔ p.low ≤ code ∧ code ≤ p.high := by simp [Protection.covers, h]

theorem Protection.covers_outside {p : Protection} (code : Nat) (h : p.sense = .outside) :
    p.covers code = true ↔ code < p.low ∨ p.high < code := by simp [Protection.covers, h]

section
variable {s : State} {code : ProductCode}

theorem State.protectionRefusal_keyed (covered : s.protection.covers code.val = true) (mode : s.protection.mode = .keyed)
    (key : s.serviceKey.debounced = false) : s.protectionRefusal code = some .keyRequired := by
  simp [State.protectionRefusal, covered, mode, key]

theorem State.protectionRefusal_locked (covered : s.protection.covers code.val = true) (mode : s.protection.mode = .locked) :
    s.protectionRefusal code = some .isProtected := by simp [State.protectionRefusal, covered, mode]

theorem State.protectionRefusal_passes (h : s.protection.covers code.val = false ∨ s.protection.mode = .unprotected
    ∨ (s.protection.mode = .keyed ∧ s.serviceKey.debounced = true)) : s.protectionRefusal code = none := by
  unfold State.protectionRefusal
  split
  · rfl
  · rcases h with h | h | ⟨h, key⟩
    · simp_all
    · simp [h]
    · simp [h, key]

end

/-! ### PRODUCT_PUT and PRODUCT_CLEAR (R18, R19) -/

theorem exec_productPut {s : State} {r : Routed} (h : s.Presents .productPut r) :
    exec .productPut s = .next (State.replied r.place ((s.served r).applyProductPut (productForm r.body))) := by
  simp [exec, execProductPut, h.take, State.replied]

theorem exec_productClear {s : State} {r : Routed} (h : s.Presents .productClear r) :
    exec .productClear s = .next (State.replied r.place ((s.served r).applyProductClear (byteField r.body 0))) := by
  simp [exec, execProductClear, h.take, State.replied]

theorem productKindOf_eq_none {n : Nat} : productKindOf n = none ↔ 1 < n := by
  match n with
  | 0 | 1 => simp [productKindOf]
  | n + 2 => simp [productKindOf]

theorem ProductForm.fieldsOk_eq_false {f : ProductForm} {kind : ProductKind} : f.fieldsOk kind = false ↔
    (kind = .multiDay ∧ (f.dayCount < 1 ∨ 14 < f.dayCount)) ∨ (kind = .season ∧ f.refundable = 1) ∨ 239 < f.validFrom
      ∨ 239 < f.validTo ∨ f.validTo < f.validFrom ∨ 3600 < f.rerideInterval ∨ 30 < f.refundGrace ∨ 99999 < f.peakRate
      ∨ 99999 < f.regularRate ∨ 99999 < f.lowRate ∨ 99999 < f.refundFee ∨ 1 < f.groupAllowed ∨ 1 < f.refundable := by
  simp only [ProductForm.fieldsOk, isFlag, Bool.and_eq_false_iff, decide_eq_false_iff_not, not_le, or_assoc]
  cases kind
  · simp [not_le]; omega
  · simp

theorem ProductForm.written_eq (f : ProductForm) (kind : ProductKind) (rowCount : Nat) : f.written kind rowCount =
    { isDefined := true, kind := kind, dayCount := if kind = ProductKind.season then 0 else f.dayCount,
      validFrom := f.validFrom, validTo := f.validTo, liftMask := f.liftMask,
      rerideInterval := f.rerideInterval, groupAllowed := decide (f.groupAllowed = 1),
      refundable := decide (f.refundable = 1), refundGrace := f.refundGrace, peakRate := f.peakRate,
      regularRate := f.regularRate, lowRate := f.lowRate, refundFee := f.refundFee, rowCount := rowCount } := by
  cases kind <;> rfl

section
variable {s : State} {f : ProductForm}

theorem State.applyProductPut_protected {code : ReplyCode} (h : s.protectionRefusal f.code = some code) :
    s.applyProductPut f = (code, s) := by simp [State.applyProductPut, h]

/-- Past the protection check PRODUCT_PUT makes its own, in the order of R18. -/
theorem State.applyProductPut_named (free : s.protectionRefusal f.code = none) {kind : ProductKind}
    (named : productKindOf f.kindCode = some kind) : s.applyProductPut f =
      if !f.fieldsOk kind then (.badField, s)
      else if (s.product f.code).isDefined ∧ kind ≠ (s.product f.code).kind then (.kindChange, s)
      else if (s.product f.code).isDefined ∧ kind = .multiDay ∧ f.dayCount < (s.product f.code).dayCount then (.dDecrease, s)
      else (.ok, s.setProduct f.code (f.written kind (s.product f.code).rowCount)) := by
  simp only [State.applyProductPut, free, named]

theorem State.applyProductClear_protected {code : ProductCode} {refusal : ReplyCode}
    (h : s.protectionRefusal code = some refusal) : s.applyProductClear code = (refusal, s) := by
  simp [State.applyProductClear, h]

theorem State.applyProductClear_free {code : ProductCode} (free : s.protectionRefusal code = none) : s.applyProductClear code =
    if 0 < (s.product code).rowCount then (.productInUse, s)
    else if !(s.product code).isDefined then (.okNoChange, s)
    else (.ok, s.setProduct code Product.undefinedRecord) := by
  simp only [State.applyProductClear, free]

/-- Past the protection check, no PRODUCT_PUT is refused for protection, and the trunk is left as it stands. -/
theorem State.applyProductPut_passes (free : s.protectionRefusal f.code = none) :
    (s.applyProductPut f).1 ≠ .keyRequired ∧ (s.applyProductPut f).1 ≠ .isProtected ∧ (s.applyProductPut f).2.trunk = s.trunk := by
  cases named : productKindOf f.kindCode with
  | none => simp [State.applyProductPut, free, named]
  | some kind =>
    rw [State.applyProductPut_named free named]
    repeat' split
    all_goals simp

theorem State.applyProductClear_passes {code : ProductCode} (free : s.protectionRefusal code = none) :
    (s.applyProductClear code).1 ≠ .keyRequired ∧ (s.applyProductClear code).1 ≠ .isProtected
      ∧ (s.applyProductClear code).2.trunk = s.trunk := by
  rw [State.applyProductClear_free free]
  repeat' split
  all_goals simp

end

/-! ### PROTECT_SET and the service key (R23, R25) -/

theorem protectionModeOf_eq_none {n : Nat} : protectionModeOf n = none ↔ 2 < n := by
  match n with
  | 0 | 1 | 2 => simp [protectionModeOf]
  | n + 3 => simp [protectionModeOf]

theorem windowSenseOf_eq_none {n : Nat} : windowSenseOf n = none ↔ 1 < n := by
  match n with
  | 0 | 1 => simp [windowSenseOf]
  | n + 2 => simp [windowSenseOf]

theorem State.Routes.take {s : State} {o : Owner} {k : RequestKind} {r : Routed} (h : s.Routes o k r) :
    s.takeRequest o k = some (r, s.dropNextFor o) := State.takeRequest_of h.1 h.2

theorem exec_protectSet {s : State} {r : Routed} (h : s.Routes .productTable .protectSet r) :
    exec .protectSet s = .next (State.replied r.place ((s.dropNextFor .productTable).applyProtectSet (protectForm r.body))) := by
  simp [exec, execProtectSet, h.take, State.replied]

theorem State.applyProtectSet_named {s : State} {f : ProtectForm} {mode : ProtectionMode}
    (named : protectionModeOf f.modeCode = some mode) : s.applyProtectSet f =
      match s.protection.mode with
      | .unprotected => s.takeProtectSet mode f
      | .keyed => if s.serviceKey.debounced then s.takeProtectSet mode f else (.keyRequired, s)
      | .locked => if mode = .locked then (.okNoChange, s) else (.isProtected, s) := by
  simp only [State.applyProtectSet, named] <;> rfl

theorem State.takeProtectSet_bad {s : State} {f : ProtectForm} {mode : ProtectionMode} (bad : 1 < f.senseCode ∨ f.high < f.low) :
    s.takeProtectSet mode f = (.badField, s) := by
  cases named : windowSenseOf f.senseCode with
  | none => simp [State.takeProtectSet, named]
  | some sense =>
    have low : f.high < f.low := bad.resolve_left fun h => by simp [windowSenseOf_eq_none.2 h] at named
    simp [State.takeProtectSet, named, low]

theorem State.takeProtectSet_ok {s : State} {f : ProtectForm} {mode : ProtectionMode} {sense : WindowSense}
    (named : windowSenseOf f.senseCode = some sense) (rising : f.low ≤ f.high) :
    s.takeProtectSet mode f = (.ok, { s with protection := { mode := mode, low := f.low, high := f.high, sense := sense } }) := by
  simp [State.takeProtectSet, named, Nat.not_lt.2 rising]

/-- In OPEN, and in KEYED with the key asserted, PROTECT_SET is taken (R25). -/
theorem State.applyProtectSet_taken {s : State} {f : ProtectForm} {mode : ProtectionMode}
    (named : protectionModeOf f.modeCode = some mode)
    (h : s.protection.mode = .unprotected ∨ (s.protection.mode = .keyed ∧ s.serviceKey.debounced = true)) :
    s.applyProtectSet f = s.takeProtectSet mode f := by
  rw [State.applyProtectSet_named named]
  rcases h with h | ⟨h, key⟩ <;> simp [*]

end Sys2Proof.Machine

open Sys2Proof Sys2Proof.Machine

/-- Settles O39: past the protection check, each refusal is the branch of R18 or R19 that its condition selects. -/
theorem productsWritten : Obligations.ProductsWritten := by
  refine ⟨fun _ => rfl, rfl, fun _ => productKindOf_eq_none.2, ?_, ?_⟩
  · rintro s r f presents rfl free
    rw [exec_productPut presents]
    refine ⟨fun bad => ?_, fun kind named => ?_⟩
    · simp [State.applyProductPut, show (s.served r).protectionRefusal (productForm r.body).code = none from free,
        productKindOf_eq_none.2 bad]
    rw [State.applyProductPut_named (s := s.served r) free named]
    refine ⟨fun bad => ?_, fun ok => ⟨fun isDefined change => ?_, fun isDefined multi old fewer => ?_, fun fits => ?_⟩⟩
    · rw [if_pos (by rw [ProductForm.fieldsOk_eq_false.2 bad]; rfl)]; rfl
    · simp [ok, isDefined, change]
    · subst multi
      simp [ok, isDefined, old, fewer]
    · have sameKind : ¬ ((s.product (productForm r.body).code).isDefined = true ∧ kind ≠ (s.product (productForm r.body).code).kind) := by
        rintro ⟨isDefined, change⟩
        rcases fits with undefined | ⟨same, -⟩
        · simp [isDefined] at undefined
        · exact change same
      have enough : ¬ ((s.product (productForm r.body).code).isDefined = true ∧ kind = .multiDay
          ∧ (productForm r.body).dayCount < (s.product (productForm r.body).code).dayCount) := by
        rintro ⟨isDefined, multi, fewer⟩
        rcases fits with undefined | ⟨-, season | least⟩
        · simp [isDefined] at undefined
        · simp [multi] at season
        · omega
      simp only [ok, State.served_product, if_neg sameKind, if_neg enough, ProductForm.written_eq]
      rfl
  · rintro s r code presents rfl free
    rw [exec_productClear presents, State.applyProductClear_free (s := s.served r) free]
    refine ⟨fun used => by simp [used], fun unused => ⟨fun undefined => by simp [unused, undefined], fun isDefined => ?_⟩⟩
    simp [unused, isDefined, State.setProduct]

/-- Settles O40, by `State.protectionRefusal`, the first check of both requests. -/
theorem protectionGates : Obligations.ProtectionGates := by
  refine ⟨fun p code => ⟨p.covers_inside code, p.covers_outside code⟩, ?_, ?_⟩
  · rintro s r code presents rfl
    rw [exec_productPut presents]
    refine ⟨fun covered mode key => ?_, fun covered mode => ?_, fun free => ?_⟩
    · rw [State.applyProductPut_protected (s := s.served r) (State.protectionRefusal_keyed covered mode key)]; rfl
    · rw [State.applyProductPut_protected (s := s.served r) (State.protectionRefusal_locked covered mode)]; rfl
    · obtain ⟨notKey, notLocked, trunk⟩ :=
        State.applyProductPut_passes (s := s.served r) (State.protectionRefusal_passes (s := s.served r) free)
      exact ⟨_, _, notKey, notLocked, rfl, trunk⟩
  · rintro s r code presents rfl
    rw [exec_productClear presents]
    refine ⟨fun covered mode key => ?_, fun covered mode => ?_, fun free => ?_⟩
    · rw [State.applyProductClear_protected (s := s.served r) (State.protectionRefusal_keyed covered mode key)]; rfl
    · rw [State.applyProductClear_protected (s := s.served r) (State.protectionRefusal_locked covered mode)]; rfl
    · obtain ⟨notKey, notLocked, trunk⟩ :=
        State.applyProductClear_passes (s := s.served r) (State.protectionRefusal_passes (s := s.served r) free)
      exact ⟨_, _, notKey, notLocked, rfl, trunk⟩

/-- Settles O41, by the mode that stands when PROTECT_SET is taken, and the service key's own events. -/
theorem protectionSet : Obligations.ProtectionSet := by
  refine ⟨fun _ => rfl, rfl, fun _ => protectionModeOf_eq_none.2, rfl, fun _ => windowSenseOf_eq_none.2, ?_, ?_, ?_, ?_⟩
  · rintro s r f routes rfl
    rw [exec_protectSet routes]
    refine ⟨fun bad => by simp [State.applyProtectSet, protectionModeOf_eq_none.2 bad], fun mode named =>
      ⟨fun locked same => ?_, fun locked other => ?_, fun keyed released => ?_, fun taken => ?_⟩⟩
    · simp [State.applyProtectSet_named named, locked, same]
    · simp [State.applyProtectSet_named named, locked, other]
    · simp [State.applyProtectSet_named named, keyed, released]
    rw [State.applyProtectSet_taken (s := s.dropNextFor .productTable) named taken]
    refine ⟨fun bad => ?_, fun sense window rising => ?_⟩
    · rw [State.takeProtectSet_bad bad]; rfl
    · rw [State.takeProtectSet_ok window rising]; rfl
  · intro s asserted changed
    simp [exec, execServiceKeyLineChange, Debounce.lineTakes, changed]
  · intro s due
    simp [exec, execServiceKeyDebounceExpiry, Debounce.isDue, Debounce.settled, due]
  · intro s waits
    rw [show exec .protectionDayOpen s = _ from if_neg waits]
    unfold Protection.unlocked
    cases s.protection with | mk mode => cases mode <;> rfl
end

section
set_option Elab.async false
/-! Power-on reset, the memory clear, the table port arbiter and the station reset (R6 to R8, R66, R87, R190, R192). -/
namespace Sys2Proof.Machine

/-! ### The state after power-on reset -/

@[simp] theorem State.reset_lane (l : LaneNo) : State.reset.lane l = Lane.powerOn false false false := by
  simp [State.reset, State.lane]

@[simp] theorem State.reset_lift (i : LiftNo) : State.reset.lift i = Lift.powerOn .closedSchedule false := by
  simp [State.reset, State.lift]

@[simp] theorem State.reset_product (c : ProductCode) : State.reset.product c = Product.undefinedRecord := by
  simp [State.reset, State.product]

theorem Calendar.powerOn_day (d : Nat) : Calendar.powerOn.day d = DayRecord.powerOn := by
  simp only [Calendar.day, Calendar.powerOn, Vector.getElem?_replicate]
  split <;> rfl

theorem TrunkPort.powerOn_condition (c : Condition) : TrunkPort.powerOn.condition c =
    if c = .tablesLost then { latched := true, masked := false, detail := .empty } else NoticeCondition.clear := by
  cases c <;> rfl

theorem Debounce.powerOn_released (level : Bool) (ms : Nat) : Debounce.powerOn false level ms =
    { line := level, debounced := false, remaining := if level = true then some ms else none } := by
  cases level <;> rfl

theorem Lane.powerOn_derived (present latch active : Bool) : (Lane.powerOn present latch active).derived = .detached := by
  simp [Lane.derived, Lane.powerOn, Debounce.powerOn]

theorem Lane.powerOn_derivedLift (present latch active : Bool) : (Lane.powerOn present latch active).derivedLift = none := by
  simp [Lane.derivedLift, Lane.powerOn]

theorem Lane.powerOn_law (present latch active : Bool) : (Lane.powerOn present latch active).Law where
  mapping := by simp [Lane.powerOn]
  served := (Lane.powerOn_derivedLift ..).symm
  state := (Lane.powerOn_derived ..).symm
  admitted := by simp [Lane.powerOn]
  phase := by simp [Lane.powerOn]
  unlock := by simp [Lane.powerOn]
  drive := by simp [Lane.powerOn]
  watch := by simp [Lane.powerOn, Debounce.powerOn]
  detached := by simp [Lane.powerOn]
  waiting := by simp [Lane.powerOn]

theorem LaneCounters.zero_denial (i : Fin 15) : LaneCounters.zero.denials[i] = 0 := by simp [LaneCounters.zero]

theorem Lane.CounterLaw.of_zero {x : Lane} (counters : x.counters = LaneCounters.zero) (errors : x.linkErrors = 0) : x.CounterLaw := by
  refine ⟨?_, ?_, fun r => ?_, ?_, ?_, by simp [errors], fun _ => ?_⟩ <;> rw [counters]
  · decide
  · decide
  · rw [LaneCounters.zero_denial]; decide
  · decide
  · decide
  · rfl

theorem Lift.powerOn_law (level : LiftState) (active : Bool) : (Lift.powerOn level active).Law := by
  constructor <;> simp [Lift.powerOn]

/-- A state whose lanes hold no row operation and no admission, and whose rows name no lane, keeps the two ends of a grant together. -/
theorem State.GrantLaw.of_idle {s : State} (ops : ∀ l, (s.lane l).rowOps = []) (free : ∀ l, (s.lane l).admission = none)
    (rows : s.table.slots = []) : s.GrantLaw where
  named l slot uid := by simp [Lane.claims, ops, free, rows, slotAt]
  ordered l before after op h := by simp [ops] at h
  discarded l _ := ops l

theorem State.reset_placeLaw : State.reset.PlaceLaw where
  accounted l i n _ := by simp [Lift.powerOn]
  emptied l i h := by simp [Lane.powerOn, Lift.powerOn] at h

theorem Calendar.powerOn_law : Calendar.powerOn.Law where
  second := Nat.zero_le _
  current d h := by cases h
  later d _ _ := by rw [Calendar.powerOn_day]; rfl
  ranges d _ := by rw [Calendar.powerOn_day]; decide
  ahead d _ _ := by rw [Calendar.powerOn_day]; rfl

theorem Journal.powerOn_law : Journal.powerOn.Law where
  held := by simp [Journal.held, Journal.powerOn]
  next := by decide
  sequences := trivial
  send := by simp [Journal.powerOn]
  replay := by simp [Journal.powerOn]
  marks := by decide

theorem TrunkPort.powerOn_law : TrunkPort.powerOn.Law where
  received := by decide
  places := by decide
  notices := by simp [TrunkPort.powerOn]
  counters := by decide

/-! ### The table port arbiter (R6) -/

section
variable {s : State}

theorem State.nextGrant_starting (h : s.trunk.partStatus = .starting) : s.nextGrant = none := by simp [State.nextGrant, h]

theorem laneNumbers_getElem (k : Nat) (h : k < laneNumbers.length) : laneNumbers[k].val = k := by
  simp only [laneNumbers, List.length_cons, List.length_nil] at h
  interval_cases k <;> rfl

/-- The search from the round-robin pointer finds a lane that waits when those before it do not. -/
theorem State.waitingLane_eq {l : LaneNo} {k : Nat} (small : k < 12) (place : l.val = (s.arbiter.pointer.val + k) % 12)
    (waits : (s.lane l).rowOps ≠ []) (before : ∀ j < k, ∀ m : LaneNo, m.val = (s.arbiter.pointer.val + j) % 12 → (s.lane m).rowOps = []) :
    s.waitingLane = some l := by
  rw [State.waitingLane, List.find?_eq_some_iff_getElem]
  refine ⟨by simpa using waits, k, by simpa [laneNumbers] using small, ?_, fun j hj => ?_⟩
  · apply Fin.ext
    rw [List.getElem_map, Fin.val_add, laneNumbers_getElem, place]
  · have idle := before j hj (s.arbiter.pointer + laneNumbers[j]'(by simp [laneNumbers]; omega))
      (by rw [Fin.val_add, laneNumbers_getElem])
    rw [List.getElem_map, idle]
    rfl

theorem State.waitingLane_eq_none (idle : ∀ l : LaneNo, (s.lane l).rowOps = []) : s.waitingLane = none := by
  simp [State.waitingLane, idle]

theorem State.waitingTrunk_owners (waits : presentedIn s.routed [] ≠ none)
    (turn : s.stream.chunk = none ∨ s.arbiter.lastTrunkRequester = .streamUnit) : s.waitingTrunk = some .trunkOwners := by
  obtain ⟨r, hr⟩ := Option.ne_none_iff_exists'.1 waits
  rcases turn with idle | turn
  · simp [State.waitingTrunk, hr, idle]
  · cases chunk : s.stream.chunk <;> simp [State.waitingTrunk, hr, chunk, turn]

theorem State.waitingTrunk_stream (waits : s.stream.chunk ≠ none)
    (turn : presentedIn s.routed [] = none ∨ s.arbiter.lastTrunkRequester = .trunkOwners) : s.waitingTrunk = some .streamUnit := by
  obtain ⟨c, hc⟩ := Option.ne_none_iff_exists'.1 waits
  rcases turn with idle | turn
  · simp [State.waitingTrunk, hc, idle]
  · cases r : presentedIn s.routed [] <;> simp [State.waitingTrunk, hc, r, turn]

theorem State.waitingTrunk_eq_none (requests : presentedIn s.routed [] = none) (chunk : s.stream.chunk = none) :
    s.waitingTrunk = none := by simp [State.waitingTrunk, requests, chunk]

variable (ready : s.trunk.partStatus = .ready)
include ready

theorem State.nextGrant_lane {l : LaneNo} (waits : s.waitingLane = some l)
    (turn : s.arbiter.lastGroup = .trunkAndStream ∨ s.waitingTrunk = none) : s.nextGrant = some (.lane l) := by
  rcases turn with turn | idle
  · cases t : s.waitingTrunk <;> simp [State.nextGrant, ready, waits, t, turn]
  · simp [State.nextGrant, ready, waits, idle]

theorem State.nextGrant_trunk {q : Requester} (waits : s.waitingTrunk = some q)
    (turn : s.arbiter.lastGroup = .lanes ∨ s.waitingLane = none) : s.nextGrant = some q := by
  rcases turn with turn | idle
  · cases l : s.waitingLane <;> simp [State.nextGrant, ready, waits, l, turn]
  · simp [State.nextGrant, ready, waits, idle]

theorem State.nextGrant_idle (lanes : s.waitingLane = none) (trunk : s.waitingTrunk = none) :
    s.nextGrant = if s.stream.state = .sweeping then some .sweep else none := by
  simp [State.nextGrant, ready, lanes, trunk]

end

/-! ### The request the trunk owners present (R6) -/

theorem presentedIn_append {before : List Routed} (quiet : ∀ q ∈ before, q.usesPort = false) (rest : List Routed) (waiting : List Owner) :
    presentedIn (before ++ rest) waiting = presentedIn rest ((before.map (·.owner)).reverse ++ waiting) := by
  induction before generalizing waiting with
  | nil => rfl
  | cons q before ih =>
    rw [List.cons_append, presentedIn, quiet q (by simp), if_neg (by simp), ih fun r hr => quiet r (by simp [hr])]
    simp

theorem presentedIn_first {before : List Routed} (quiet : ∀ q ∈ before, q.usesPort = false) {r : Routed} (uses : r.usesPort = true)
    (after : List Routed) : presentedIn (before ++ r :: after) [] = if ∃ q ∈ before, q.owner = r.owner then none else some r := by
  rw [presentedIn_append quiet, presentedIn, if_pos uses]
  simp

theorem presentedIn_quiet {routed : List Routed} (quiet : ∀ q ∈ routed, q.usesPort = false) : presentedIn routed [] = none := by
  simpa [presentedIn] using presentedIn_append quiet [] []

theorem Routed.usesPort_iff (r : Routed) : r.usesPort = true ↔
    r.kind ∈ [RequestKind.passPut, .passSetStatus, .passDelete, .passRead, .usageMerge, .productPut, .productClear]
      ∨ (r.kind = .refundRequest ∧ refundFormOk r.body = true) := by
  unfold Routed.usesPort
  cases r.kind <;> simp

/-! ### Station reset (R8, R66, R87, R192) -/

theorem TrunkPort.setCondition_condition (t : TrunkPort) (c d : Condition) (x : NoticeCondition) :
    (t.setCondition c x).condition d = if d = c then x else t.condition d := by
  simp only [TrunkPort.setCondition, TrunkPort.condition]
  split
  · next h => subst h; exact Vector.getElem_set_self _
  · next h => exact Vector.getElem_set_ne _ _ fun e => h (by cases c <;> cases d <;> simp_all [Condition.index])

theorem TrunkPort.raiseRestarted_condition (t : TrunkPort) (c : Condition) : t.raiseRestarted.condition c =
    if c = .restarted then { t.condition .restarted with latched := true, detail := .empty } else t.condition c := by
  simp only [TrunkPort.raiseRestarted]
  split <;> exact TrunkPort.setCondition_condition ..

/-- RESTARTED is raised in the conditions and the pending notices alone (R192). -/
theorem TrunkPort.raiseRestarted_eq (t : TrunkPort) : t.raiseRestarted =
    { t with
      conditions := t.raiseRestarted.conditions
      pendingNotices := if (t.condition .restarted).masked = true then t.pendingNotices
        else placeIn t.pendingNotices { condition := .restarted, detail := .empty } } := by
  simp only [TrunkPort.raiseRestarted]
  split <;> rfl

/-- What the trunk port's station reset writes, the conditions apart (R192). -/
theorem TrunkPort.stationReset_eq (t : TrunkPort) (asked : Option Tag) : t.stationReset asked =
    { t with
      rxQueue := [], reserved := [], conditions := (t.stationReset asked).conditions
      filled := (match asked with
        | some tag => [{ kind := 0xC1, tag := tag, body := [0] }]
        | none => [])
      pendingNotices := if (t.condition .restarted).masked = true then [] else [{ condition := .restarted, detail := .empty }]
      transmitter := t.transmitter.map fun x => { x with occupies := .nothing } } := by
  cases asked <;> exact TrunkPort.raiseRestarted_eq _

/-- What a lane's station reset puts off: its admission, mode, tap in flight, row operations and turnstile (R66). -/
def Lane.cleared (x : Lane) : Lane :=
  { x with admission := none, configuredMode := .locked, unlock := false, driveWindow := none, releaseWatch := none,
           validationInFlight := false, waitingTap := none, rowOps := [], lastRequest := 0, resetsPending := x.resetsPending - 1 }

theorem Lane.stationReset_eq (x : Lane) : x.stationReset = ({ x.cleared with effective := x.cleared.derived } : Lane).showState := rfl

theorem Lane.stationReset_wantsUnlock (x : Lane) : x.stationReset.wantsUnlock = decide (x.stationReset.effective = .overrideFree) := by
  simp [Lane.wantsUnlock, Lane.stationReset_eq, Lane.cleared]

theorem Lane.stationReset_driveWindow (x : Lane) : x.stationReset.driveWindowAfter =
    if x.stationReset.effective = .overrideFree ∧ x.stationReset.latchReleased = false then some 250 else none := by
  have released : x.stationReset.unlock = false := rfl
  by_cases free : x.stationReset.effective = .overrideFree
  · cases latch : x.stationReset.latchReleased <;>
      simp [Lane.driveWindowAfter, Lane.stationReset_wantsUnlock, free, latch, released]
  · simp [Lane.driveWindowAfter, Lane.stationReset_wantsUnlock, free]

theorem Lane.stationReset_releaseWatch (x : Lane) : x.stationReset.releaseWatchAfter =
    if x.stationReset.effective ≠ .overrideFree ∧ x.stationReset.presence.debounced = true ∧ x.stationReset.stuckOpen = false
      ∧ x.stationReset.latchReleased = true then some 250 else none := by
  have stopped : x.stationReset.releaseWatch = none := rfl
  simp [Lane.releaseWatchAfter, Lane.watched, Lane.stationReset_wantsUnlock, stopped, and_assoc]

theorem State.startReset_lane (s : State) (asked : Option Tag) (l : LaneNo) :
    (s.startReset asked).lane l = { s.lane l with rowOps := [], resetsPending := (s.lane l).resetsPending + 1 } := by
  simp [State.startReset, State.lane]

theorem State.startReset_lift (s : State) (asked : Option Tag) (i : LiftNo) :
    (s.startReset asked).lift i = { s.lift i with resetsPending := (s.lift i).resetsPending + 1 } := by
  simp [State.startReset, State.lift]

end Sys2Proof.Machine

open Sys2Proof Sys2Proof.Machine

/-- Settles O3: each field of `State.reset` by the value its block's power-on record gives it. -/
theorem resetValues : Obligations.ResetValues := by
  simp only [Obligations.ResetValues, State.reset_lane, State.reset_lift, State.reset_product]
  have conditions (c : Condition) : State.reset.trunk.condition c =
      if c = .tablesLost then { latched := true, masked := false, detail := .empty } else NoticeCondition.clear :=
    TrunkPort.powerOn_condition c
  refine ⟨rfl, rfl, rfl, fun c other => by rw [conditions, if_neg other]; rfl, fun c => by rw [conditions]; split <;> rfl, rfl, rfl, rfl,
    rfl, rfl, rfl, rfl, fun _ => rfl, rfl, rfl, rfl, rfl, rfl, rfl, rfl, rfl, fun d _ => Calendar.powerOn_day d, fun _ => ?_, fun _ => ?_,
    rfl, rfl, rfl, rfl, fun i hour => ?_, fun i => ?_, rfl, rfl, rfl, rfl, rfl, rfl, rfl, rfl⟩
  · exact ⟨rfl, rfl, rfl, rfl, rfl, rfl, fun i => by simp [Lane.powerOn], rfl, rfl, rfl, rfl, rfl, rfl, rfl, rfl, rfl, rfl, rfl, rfl, rfl, rfl,
      rfl, rfl, rfl, rfl⟩
  · exact ⟨rfl, rfl, rfl, rfl, rfl, rfl, rfl, rfl⟩
  · simp [State.reset, Journal.powerOn]
  · simp [State.reset, Journal.powerOn]

/-- Settles O4: the law of each block by its power-on value, and the laws over the table and the lanes since both are empty. -/
theorem resetMeetsLaws : Obligations.ResetMeetsLaws :=
  ⟨(State.tableLaw_iff _).2 ⟨slotsLaw_nil, fun _ => rfl⟩, State.reset_countLaw,
    ⟨fun e h => absurd h (List.not_mem_nil), fun d h => (by cases h), fun l slot uid head lift stamp d h => by simp [Lane.powerOn] at h⟩,
    fun e h => absurd h (List.not_mem_nil), State.reset_productLaw, Calendar.powerOn_law,
    fun l => by rw [State.reset_lane]; exact Lane.powerOn_law ..,
    fun l => by rw [State.reset_lane]; exact .of_zero rfl rfl,
    .of_idle (fun l => by rw [State.reset_lane]; rfl) (fun l => by rw [State.reset_lane]; rfl) rfl,
    fun i => by rw [State.reset_lift]; exact Lift.powerOn_law .., State.reset_placeLaw, Journal.powerOn_law, TrunkPort.powerOn_law⟩

/-- Settles O22: the power-on values, the memory clear, and the arbiter by which of its two groups waits. -/
theorem powerOnClearsTable : Obligations.PowerOnClearsTable := by
  refine ⟨fun s => ?_, fun _ => State.nextGrant_starting, fun s starting => ?_, fun s ready => ⟨?_, ?_, ?_⟩, fun s l => ?_,
    fun s => ⟨rfl, rfl, rfl⟩, fun before after r quiet uses => ?_, fun _ => presentedIn_quiet, Routed.usesPort_iff⟩
  · refine ⟨_, rfl, rfl, rfl, rfl, rfl, rfl, rfl, rfl, rfl, ?_, rfl, rfl, rfl, rfl, rfl, fun l => ?_, fun i => ?_, rfl, rfl, rfl⟩
    · exact congrArg Debounce.remaining (Debounce.powerOn_released s.serviceKey.line 100)
    · rw [State.reset_lane]
      simp only [State.lane, Lane.powerOn, Debounce.powerOn_released, Vector.getElem_map, Fin.getElem_fin]
      rfl
    · rw [State.reset_lift]
      simp only [State.lift, Lift.powerOn, Debounce.powerOn, Vector.getElem_map, Fin.getElem_fin, Lift.mk.injEq, Debounce.mk.injEq, true_and,
        and_true]
      exact if_congr Iff.rfl rfl rfl
  · simp [exec, execMemoryClearDone, starting, Arbiter.initial]
  · intro l k small place waits before turn
    refine State.nextGrant_lane ready (State.waitingLane_eq small place waits before) (turn.imp_right ?_)
    rintro ⟨requests, chunk⟩
    exact State.waitingTrunk_eq_none requests chunk
  · intro turn
    have turn := turn.imp_right State.waitingLane_eq_none
    exact ⟨fun waits alternates => State.nextGrant_trunk ready (State.waitingTrunk_owners waits alternates) turn,
      fun waits alternates => State.nextGrant_trunk ready (State.waitingTrunk_stream waits alternates) turn⟩
  · intro lanes requests chunk
    rw [State.nextGrant_idle ready (State.waitingLane_eq_none lanes) (State.waitingTrunk_eq_none requests chunk)]
    exact ⟨fun sweeping => if_pos sweeping, fun other => if_neg other⟩
  · exact ⟨l + 1, by rw [Fin.val_add]; rfl, rfl⟩
  · rw [presentedIn_first quiet uses]
    exact ⟨fun apart => if_neg fun ⟨q, hq, same⟩ => apart q hq same, fun same => if_pos same⟩

/-- Settles O23: the reset at the trunk port and the tables, and then in each lane's and each lift's own event. -/
theorem stationResetTaken : Obligations.StationResetTaken := by
  refine ⟨fun s asked rest waits => ?_, fun s l waits => ?_, fun s i waits => ?_⟩
  · have started : exec .stationReset s = .next ({ s with trunk := { s.trunk with restarts := rest } }.startReset asked) := by
      simp [exec, execStationReset, waits]
    have kept {α : Type} (f : TrunkPort → α) := congrArg f (TrunkPort.stationReset_eq { s.trunk with restarts := rest } asked)
    refine ⟨_, started, kept (·.rxQueue), kept (·.reserved), kept (·.restarts), kept (·.filled), ?_, fun c other => ?_, kept (·.pendingNotices),
      kept (·.partStatus), kept (·.malformed), kept (·.rxOverflow), kept (·.raises), fun idle => ?_, fun x sends => ?_, ?_, fun slot => ?_, rfl, rfl, rfl,
      fun l => ?_, rfl, rfl, rfl, rfl, rfl, rfl, rfl, State.startReset_lane _ asked, State.startReset_lift _ asked⟩
    · exact congrArg NoticeCondition.latched ((TrunkPort.raiseRestarted_condition _ _).trans (if_pos rfl))
    · exact (TrunkPort.raiseRestarted_condition _ _).trans (if_neg other)
    · exact (kept (·.transmitter)).trans (by simp [idle])
    · exact (kept (·.transmitter)).trans (by simp [sends])
    · simp [State.startReset, routedAfterReset]
    · exact slotAt_map s.table.slots (fun row => { row with pendingLane := none }) slot
    · simp [State.startReset, PassTable.stationReset]
  · have taken : exec (.laneStationReset l) s = .next (s.laneEvent l fun _ x => x.stationReset) := by
      simp [exec, execLaneStationReset, waits]
    refine ⟨_, taken, rfl, rfl, rfl, rfl, rfl, rfl, rfl, rfl, rfl, rfl, ?_, ?_, ?_, rfl, rfl, rfl, rfl, rfl, rfl, rfl, rfl, rfl, rfl, rfl, rfl, rfl, rfl,
      rfl, rfl, rfl, rfl, rfl, rfl⟩
    · simp [Lane.settle, Lane.stationReset_wantsUnlock]
    · exact Lane.stationReset_driveWindow (s.lane l)
    · exact Lane.stationReset_releaseWatch (s.lane l)
  · refine ⟨_, show exec (.liftStationReset i) s = _ from if_neg waits, ?_, fun l => ?_⟩
    · exact State.setLift_lift_same s i _
    · exact Vector.getElem_map ..
end

section
set_option Elab.async false
/-! The reads: where each field of a reply stands, and what each owner answers (R15, R20, R40, R65, R86, R140, R191, R197). -/
namespace Sys2Proof.Machine

/-! ### Where the fields stand -/

/-- A field of a piece of a body that stands behind `n` other bytes. -/
theorem field_piece {bytes before piece after : List Byte} {n : Nat} (split : bytes = before ++ (piece ++ after)) (long : before.length = n)
    {offset len : Nat} (inside : offset + len ≤ piece.length) : field bytes (n + offset) len = field piece offset len := by
  rw [split, field_append_right (by omega), field_append_left (by omega)]
  congr 1
  omega

theorem uidBytes_field (uid : Uid) : field (uidBytes uid) 0 8 = uid.toNat := by
  rw [uidBytes, field_be]; exact Nat.mod_eq_of_lt uid.isLt

/-- A list of counts, each in `size` bytes. -/
theorem field_counts (counts : List Nat) (size j : Nat) :
    field (counts.map (be · size)).flatten (size * j) size = (counts[j]?.getD 0) % 256 ^ size := by
  simpa using field_flatten (encode := (be · size)) (value := id) (size := size) (by simp) (fun n => numberOf_be n size) counts 0 j

theorem productBytes_layout (p : Product) (c : Bool) : (productBytes p c).length = 39 ∧ ProductLayout p c (productBytes p c) := by
  refine ⟨by simp [productBytes], ?_⟩
  have mask : p.liftMask.toNat < 18446744073709551616 := p.liftMask.isLt
  constructor <;> simp (disch := simp) [productBytes, numberAt, flagAt, field_append_left, field_append_right, field_be, field_byte,
    field_cons_succ, flagByte_toNat, mask]

theorem calendarBytes_layout (r : DayRecord) (credit : Nat) (isCurrent : Bool) :
    (calendarBytes r credit isCurrent).length = 9 ∧ CalendarLayout r credit isCurrent (calendarBytes r credit isCurrent) := by
  refine ⟨by simp [calendarBytes], ?_⟩
  constructor <;> simp (disch := simp) [calendarBytes, numberAt, flagAt, field_append_left, field_append_right, field_be, field_byte,
    field_cons_succ, flagByte_toNat]

/-- The last passage of a pass row, 7 bytes (section 10.7). -/
def passageBytes (p : Option LastPassage) : List Byte :=
  match p with
  | none => List.replicate 7 0
  | some p => 1 :: be p.lift.val 1 ++ be p.day 1 ++ be p.second 4

/-- The refund of a pass row, 10 bytes (section 10.7). -/
def refundBytes (f : Option Refund) : List Byte :=
  match f with
  | none => List.replicate 10 0
  | some r => 1 :: be r.paidPerHead 4 ++ be r.balancePerHead 4 ++ be r.retireDay 1

@[simp] theorem passageBytes_length (p : Option LastPassage) : (passageBytes p).length = 7 := by
  cases p <;> simp [passageBytes]

@[simp] theorem refundBytes_length (f : Option Refund) : (refundBytes f).length = 10 := by
  cases f <;> simp [refundBytes]

theorem passRowBytes_eq (slot : Nat) (row : PassRow) : passRowBytes slot row =
    uidBytes row.uid ++ be row.product.val 1 ++ [row.status.code] ++ be row.headcount 1 ++ optionalBytes row.expiryDay 1
      ++ be row.generation.val 1 ++ be row.pricePerHead 4 ++ be row.seasonDays 1 ++ optionalBytes row.lastCountedDay 1
      ++ listBytes (row.consumed.map (be · 1)) 14 1 ++ be slot 2 ++ passageBytes row.lastPassage
      ++ optionalBytes (row.pendingLane.map (·.val)) 1 ++ refundBytes row.refund := rfl

@[simp] theorem dayBytes_length (days : List Nat) : (listBytes (days.map (be · 1)) 14 1).length = 15 :=
  listBytes_length (by simp)

theorem dayBytes_list (days : List Nat) : listAt (listBytes (days.map (be · 1)) 14 1) 0 14 1 days := by
  simpa using listAt_bytes (encode := (be · 1)) (value := id) (greatest := 14) (by simp) (fun n => numberOf_be n 1) days (by decide)

theorem passRowBytes_layout (slot : Nat) (row : PassRow) :
    (passRowBytes slot row).length = 57 ∧ PassRowLayout slot row (passRowBytes slot row) := by
  rw [passRowBytes_eq]
  refine ⟨by simp, ?_⟩
  have product : row.product.val % 256 = row.product.val := Nat.mod_eq_of_lt row.product.isLt
  have generation : row.generation.val % 256 = row.generation.val := Nat.mod_eq_of_lt row.generation.isLt
  constructor
  case lastPassage =>
    intro p h
    have lift : p.lift.val % 256 = p.lift.val := Nat.mod_eq_of_lt (Nat.lt_trans p.lift.isLt (by decide))
    simp (disch := simp) [h, passageBytes, numberAt, field_append_left, field_append_right, field_be, field_byte, field_cons_succ, lift]
  case refund =>
    intro f h
    simp (disch := simp) [h, refundBytes, numberAt, field_append_left, field_append_right, field_be, field_byte, field_cons_succ]
  all_goals
    simp (disch := simp) [numberAt, field_append_left, field_append_right, field_be, field_byte, field_cons_succ, uidBytes_field,
      optionalAt_append_left, optionalAt_append_right, optionalAt_bytes, optionalAt_cons_succ, listAt_append_left, listAt_append_right,
      listAt_cons_succ, dayBytes_list, product, generation]
  case noPassage => intro h; rw [h]; exact field_replicate 7 0 7
  case noRefund => intro h; rw [h]; exact field_replicate 10 0 10

/-! ### LANE_READ (R65) -/

/-- The admission in LANE_READ, 14 bytes. -/
def admissionBytes (a : Option Admission) : List Byte :=
  match a with
  | none => List.replicate 14 0
  | some a => 1 :: uidBytes a.uid ++ be a.lift.val 1 ++ optionalBytes (a.phase.map (·.code.toNat)) 1
      ++ be a.headsTotal 1 ++ be a.headsPassed 1

/-- The last signal shown in LANE_READ, 4 bytes. -/
def shownBytes (h : Option Show) : List Byte :=
  match h with
  | none => List.replicate 4 0
  | some h => 1 :: h.signal.code :: h.reason.code :: be h.heads 1

/-- The denial counters in LANE_READ, 30 bytes. -/
def denialBytes (c : LaneCounters) : List Byte := (c.denials.toList.map (be · 2)).flatten

@[simp] theorem admissionBytes_length (a : Option Admission) : (admissionBytes a).length = 14 := by
  cases a <;> simp [admissionBytes]

@[simp] theorem shownBytes_length (h : Option Show) : (shownBytes h).length = 4 := by cases h <;> simp [shownBytes]

@[simp] theorem denialBytes_length (c : LaneCounters) : (denialBytes c).length = 30 := by
  rw [denialBytes, flatten_length (size := 2) (by simp)]
  simp

theorem denialBytes_field (c : LaneCounters) (i : Fin 15) : field (denialBytes c) (2 * i.val) 2 = c.denials[i] % 65536 := by
  simpa [denialBytes] using field_counts c.denials.toList 2 i.val

/-- What stands before the counters in LANE_READ, 27 bytes. -/
def laneStateBytes (x : Lane) : List Byte :=
  [flagByte x.presence.debounced, x.keyPosition.code, x.configuredMode.code, flagByte x.actuationFail,
      flagByte x.stuckOpen, flagByte x.latchReleased, flagByte x.unlock]
    ++ be x.primaryLift.val 1 ++ optionalBytes (x.secondaryLift.map (·.val)) 1 ++ optionalBytes (x.servedLift.map (·.val)) 1
    ++ [x.effective.code] ++ admissionBytes x.admission

@[simp] theorem laneStateBytes_length (x : Lane) : (laneStateBytes x).length = 27 := by simp [laneStateBytes]

theorem laneBytes_eq (x : Lane) : laneBytes x =
    laneStateBytes x
      ++ (be x.counters.taps 2 ++ be x.counters.grants 2 ++ denialBytes x.counters ++ be x.counters.balks 2 ++ be x.counters.partials 2
        ++ be x.counters.holdExpiries 2 ++ be x.counters.intrusions 2 ++ be x.counters.freePassages 2)
      ++ be x.linkErrors 2 ++ shownBytes x.lastShown := rfl

theorem laneBytes_layout (x : Lane) : (laneBytes x).length = 77 ∧ LaneLayout x (laneBytes x) := by
  rw [laneBytes_eq]
  refine ⟨by simp, ?_⟩
  have liftSmall (i : LiftNo) : i.val % 256 = i.val := Nat.mod_eq_of_lt (Nat.lt_trans i.isLt (by decide))
  constructor
  case admission =>
    intro a h
    simp (disch := simp) [h, laneStateBytes, admissionBytes, numberAt, field_append_left, field_append_right, field_be, field_byte, field_cons_succ,
      uidBytes_field, optionalAt_append_left, optionalAt_append_right, optionalAt_bytes, optionalAt_cons_succ, liftSmall]
  case lastShown =>
    intro h shown
    simp (disch := simp) [shown, shownBytes, numberAt, field_append_right, field_be, field_byte, field_cons_succ]
  case denials =>
    intro reason
    have small := reason.index.isLt
    rw [numberAt, field_piece (n := 31) (before := laneStateBytes x ++ be x.counters.taps 2 ++ be x.counters.grants 2)
      (piece := denialBytes x.counters) (by simp only [List.append_assoc]; rfl) (by simp) (by simp; omega)]
    exact denialBytes_field x.counters reason.index
  all_goals
    simp (disch := simp) [laneStateBytes, numberAt, flagAt, field_append_left, field_append_right, field_be, field_byte, field_cons_succ,
      flagByte_toNat, optionalAt_append_left, optionalAt_append_right, optionalAt_bytes, optionalAt_cons_succ, liftSmall]
  case noAdmission => intro h; rw [h]; exact field_replicate 14 0 14
  case notShown => intro h; rw [h]; exact field_replicate 4 0 4

/-! ### LIFT_READ (R86) -/

/-- A reservation list in LIFT_READ, and the lanes it serves. -/
theorem laneList_bytes {α : Type} (lane : α → LaneNo) (entries : List α) :
    (listBytes (entries.map fun e => be (lane e).val 1) 12 1).length = 13
      ∧ listAt (listBytes (entries.map fun e => be (lane e).val 1) 12 1) 0 12 1 (entries.map fun e => (lane e).val) :=
  ⟨listBytes_length (by simp), listAt_bytes (by simp) (fun e => numberOf_be _ 1) entries (by decide)⟩

/-- A held request in LIFT_READ: its lane and its hold start. -/
theorem holdQueue_bytes (entries : List HoldEntry) :
    (listBytes (entries.map fun e => be e.lane.val 1 ++ be e.holdStart.toNat 4) 12 5).length = 61
      ∧ listAt (listBytes (entries.map fun e => be e.lane.val 1 ++ be e.holdStart.toNat 4) 12 5) 0 12 5
          (entries.map fun e => e.lane.val * 4294967296 + e.holdStart.toNat) := by
  refine ⟨listBytes_length (by simp), listAt_bytes (by simp) (fun e => ?_) entries (by decide)⟩
  have lane : be e.lane.val 1 = [BitVec.ofNat 8 e.lane.val] := by simp [be]
  have start := e.holdStart.isLt
  have laneSmall := e.lane.isLt
  rw [lane, List.singleton_append, numberOf_cons, be_length, numberOf_be, BitVec.toNat_ofNat]
  omega

theorem liftBytes_layout (x : Lift) (servedBy : List LaneNo) :
    (liftBytes x servedBy).length = 98 ∧ LiftLayout x servedBy (liftBytes x servedBy) := by
  obtain ⟨reservedLong, reserved⟩ := laneList_bytes (fun r : Reservation => r.lane) x.reservations
  obtain ⟨heldLong, held⟩ := holdQueue_bytes x.holdQueue
  obtain ⟨servedLong, served⟩ := laneList_bytes (fun l : LaneNo => l) servedBy
  refine ⟨by simp [liftBytes, reservedLong, heldLong, servedLong], ?_⟩
  constructor <;> simp (disch := simp [reservedLong, heldLong]) [liftBytes, numberAt, flagAt, field_append_left, field_append_right, field_be, field_byte,
    field_cons_succ, flagByte_toNat, listAt_append_left, listAt_append_right, listAt_cons_succ, reservedLong, heldLong, reserved, held, served]

/-! ### JOURNAL_READ (R140) -/

/-- The bins of a lift, 96 bytes. -/
def liftBinBytes (j : Journal) (i : LiftNo) : List Byte := (j.bins[i].toList.map (be · 4)).flatten

@[simp] theorem liftBinBytes_length (j : Journal) (i : LiftNo) : (liftBinBytes j i).length = 96 := by
  rw [liftBinBytes, flatten_length (size := 4) (by simp)]
  simp

theorem liftBinBytes_field (j : Journal) (i : LiftNo) (hour : Fin 24) :
    field (liftBinBytes j i) (4 * hour.val) 4 = j.bins[i][hour] % 4294967296 := by
  simpa [liftBinBytes] using field_counts j.bins[i].toList 4 hour.val

/-- The bins of a lift and its overflow, or the overflow of the station, 104 bytes. -/
def binBytes (j : Journal) (lift : Option LiftNo) : List Byte :=
  match lift with
  | some i => liftBinBytes j i ++ be j.liftOverflow[i] 4 ++ be 0 4
  | none => List.replicate 100 0 ++ be j.stationOverflow 4

/-- What stands before them in JOURNAL_READ, 31 bytes. -/
def journalHeadBytes (j : Journal) : List Byte :=
  be j.ring.length 2 ++ optionalBytes (j.ring.head?.map (·.sequence)) 4 ++ optionalBytes (j.ring.getLast?.map (·.sequence)) 4
    ++ be j.nextSequence 4 ++ optionalBytes j.sendPosition 4 ++ optionalBytes j.replayCursor 4 ++ be j.lowMark 2
    ++ be j.highMark 2 ++ [flagByte j.above]

theorem journalBytes_eq (j : Journal) (lift : Option LiftNo) : journalBytes j lift = journalHeadBytes j ++ binBytes j lift := rfl

@[simp] theorem journalHeadBytes_length (j : Journal) : (journalHeadBytes j).length = 31 := by simp [journalHeadBytes]

@[simp] theorem binBytes_length (j : Journal) (lift : Option LiftNo) : (binBytes j lift).length = 104 := by
  cases lift <;> simp [binBytes]

theorem journalBytes_layout (j : Journal) (lift : Option LiftNo) :
    (journalBytes j lift).length = 135 ∧ JournalLayout j lift (journalBytes j lift) := by
  rw [journalBytes_eq]
  refine ⟨by simp, ?_⟩
  constructor
  case bins =>
    rintro i rfl hour
    have small := hour.isLt
    rw [numberAt, field_append_right (by simp), binBytes, List.append_assoc, field_append_left (by simp; omega),
      journalHeadBytes_length, Nat.add_sub_cancel_left, liftBinBytes_field]
    rfl
  case overflow =>
    rintro i rfl
    constructor <;> simp (disch := simp) [numberAt, field_append_right, field_append_left, binBytes, field_be]
  case station =>
    rintro rfl
    refine ⟨fun k small => ?_, ?_⟩
    · rw [field_append_right (by simp), binBytes, field_append_left (by simp; omega), field_replicate]
    · rw [numberAt, field_append_right (by simp), binBytes, field_append_right (by simp), journalHeadBytes_length, List.length_replicate,
        field_be]
  all_goals
    simp (disch := simp) [journalHeadBytes, Journal.held, numberAt, flagAt, field_append_left, field_append_right, field_be, field_byte,
      flagByte_toNat, optionalAt_append_left, optionalAt_append_right, optionalAt_bytes]

/-! ### STATUS (R191) -/

/-- The latches and the masks in STATUS, 20 bytes. -/
def conditionBytes (t : TrunkPort) : List Byte :=
  (allConditions.map fun c => [flagByte (t.condition c).latched, flagByte (t.condition c).masked]).flatten

@[simp] theorem conditionBytes_length (t : TrunkPort) : (conditionBytes t).length = 20 := by
  simp [conditionBytes, allConditions]

theorem conditionBytes_field (t : TrunkPort) (c : Condition) :
    flagAt (conditionBytes t) (2 * c.index.val) (t.condition c).latched
      ∧ flagAt (conditionBytes t) (2 * c.index.val + 1) (t.condition c).masked := by
  constructor <;> rw [flagAt, ← flagByte_toNat] <;> cases c <;> exact field_byte _ _

/-- What stands before the conditions in STATUS, 14 bytes. -/
def statusHeadBytes (s : State) : List Byte :=
  be 0x3E1A 2 ++ be 0x2460 2 ++ be 0x43 1 ++ [s.trunk.partStatus.code] ++ optionalBytes s.calendar.currentDay 1
    ++ optionalBytes (s.calendar.dayState.map (·.code.toNat)) 1 ++ be s.calendar.secondOfDay 4

@[simp] theorem statusHeadBytes_length (s : State) : (statusHeadBytes s).length = 14 := by simp [statusHeadBytes]

theorem statusBytes_eq (s : State) : statusBytes s =
    statusHeadBytes s ++ conditionBytes s.trunk ++ be s.trunk.malformed 2 ++ be s.trunk.rxOverflow 2 ++ be s.table.usedSlots 4
      ++ be s.journal.held 2 ++ [s.stream.state.code] := rfl

theorem Calendar.dayState_eq {c : Calendar} {d : Nat} (small : d ≤ 239) (today : c.currentDay = some d) :
    c.dayState = some (c.day d).state := by
  have held : c.days[d]? = some c.days[d] := Vector.getElem?_eq_getElem (by omega)
  simp [Calendar.dayState, Calendar.day, today, held]

theorem statusBytes_layout (s : State) : (statusBytes s).length = 45 ∧ StatusLayout s (statusBytes s) := by
  rw [statusBytes_eq]
  refine ⟨by simp, ?_⟩
  constructor
  case latches =>
    intro c
    have small := c.index.isLt
    rw [flagAt, field_piece (n := 14) (before := statusHeadBytes s) (piece := conditionBytes s.trunk)
      (by simp only [List.append_assoc]; rfl) (by simp) (by simp; omega)]
    exact (conditionBytes_field s.trunk c).1
  case masks =>
    intro c
    have small := c.index.isLt
    rw [flagAt, show 15 + 2 * c.index.val = 14 + (2 * c.index.val + 1) by omega,
      field_piece (n := 14) (before := statusHeadBytes s) (piece := conditionBytes s.trunk)
      (by simp only [List.append_assoc]; rfl) (by simp) (by simp; omega)]
    exact (conditionBytes_field s.trunk c).2
  case noDay =>
    intro idle
    have noState : s.calendar.dayState = none := by simp [Calendar.dayState, idle]
    simp (disch := simp) [statusHeadBytes, optionalAt_append_left, optionalAt_append_right, optionalAt_cons_succ, optionalAt_bytes, noState]
  case dayState =>
    intro d small today
    simp (disch := simp) [statusHeadBytes, optionalAt_append_left, optionalAt_append_right, optionalAt_cons_succ, optionalAt_bytes,
      Calendar.dayState_eq small today]
  all_goals
    simp (disch := simp) [statusHeadBytes, numberAt, field_append_left, field_append_right, field_be, field_byte, field_cons_succ,
      optionalAt_append_left, optionalAt_append_right, optionalAt_cons_succ, optionalAt_bytes]

/-! ### Bytes and numbers -/

theorem field_one {bytes : List Byte} {k : Nat} {b : Byte} (h : bytes[k]? = some b) : field bytes k 1 = b.toNat := by
  obtain ⟨small, rfl⟩ := List.getElem?_eq_some_iff.1 h
  rw [field, List.drop_eq_getElem_cons small]
  exact field_byte bytes[k] (bytes.drop (k + 1))

theorem field_succ {bytes : List Byte} {k len : Nat} (long : k + len < bytes.length) :
    field bytes k (len + 1) = field bytes k len * 256 + field bytes (k + len) 1 := by
  have last : (bytes.drop k).take (len + 1) = (bytes.drop k).take len ++ [bytes[k + len]] := by
    rw [List.take_succ_eq_append_getElem (by simp; omega), List.getElem_drop]
  rw [field, last, numberOf_append_singleton, field_one (List.getElem?_eq_getElem long)]
  rfl

theorem field_one_lt (bytes : List Byte) (k : Nat) : field bytes k 1 < 256 := by
  rw [field]
  cases bytes.drop k with
  | nil => decide
  | cons b rest => simpa [numberOf] using b.isLt

theorem byteField_val (bytes : List Byte) (k : Nat) : (byteField bytes k).val = field bytes k 1 :=
  Nat.mod_eq_of_lt (field_one_lt bytes k)

/-! ### What the owners answer -/

theorem mem_laneNumbers (l : LaneNo) : l ∈ laneNumbers := by revert l; decide

theorem State.mem_servedBy {s : State} {i : LiftNo} {l : LaneNo} : l ∈ s.servedBy i ↔ (s.lane l).servedLift = some i := by
  simp [State.servedBy, mem_laneNumbers]

theorem State.servedBy_ascending (s : State) (i : LiftNo) : (s.servedBy i).Pairwise (· < ·) :=
  List.Pairwise.filter _ (by decide)

end Sys2Proof.Machine

open Sys2Proof Sys2Proof.Machine

/-- Settles O32: each owner's own read, and the layout of the bytes it answers. -/
theorem readsAnswer : Obligations.ReadsAnswer := by
  refine ⟨fun s r routes => ⟨?_, statusBytes_layout s⟩, fun s r presents => ⟨fun zero => ?_, fun legal free => ?_, fun slot row legal held => ?_⟩,
    fun s r routes => ⟨_, _, rfl, rfl, ?_, productBytes_layout _ _⟩, fun s r routes => ⟨fun late => ?_, ?_⟩,
    fun s l r routes => ⟨?_, laneBytes_layout _⟩,
    fun s i r routes => ⟨s.servedBy i, fun l => State.mem_servedBy, s.servedBy_ascending i, ?_, liftBytes_layout _ _⟩,
    fun s r routes => ⟨fun all => ⟨?_, journalBytes_layout _ _⟩, fun i one => ⟨?_, journalBytes_layout _ _⟩, fun none notAll => ?_⟩,
    fun _ _ _ => field_one, fun _ _ _ => field_succ, rfl, rfl, rfl, rfl, rfl, rfl, rfl, rfl, rfl, rfl, rfl, rfl, rfl, rfl⟩
  · simp only [exec, execStatus, routes.take]
    rfl
  · simp [exec, execPassRead, presents.take, zero]
  · simp only [exec, execPassRead, presents.take, if_neg legal, State.served_table, free]
  · refine ⟨?_, passRowBytes_layout slot row⟩
    simp only [exec, execPassRead, presents.take, if_neg legal, State.served_table, held]
  · simp only [exec, execProductRead, routes.take, byteField_val]
    rfl
  · simp [exec, execCalendarRead, routes.take, late]
  · rintro d rfl small
    exact ⟨_, by simp [exec, execCalendarRead, routes.take, Nat.not_lt.2 small]; rfl, calendarBytes_layout _ _ _⟩
  · simp [exec, execLaneRead, routes.take]
  · simp only [exec, execLiftRead, routes.take]
    rfl
  · simp [exec, execJournalRead, routes.take, all]
  · have small : i.val ≠ 255 := by have := i.isLt; omega
    simp [exec, execJournalRead, routes.take, one, small]
  · have notLift : ¬ field r.body 0 1 < 4 := by omega
    simp [exec, execJournalRead, routes.take, notAll, notLift]
end

section
set_option Elab.async false
/-! How a stream is suspended, closed, aborted, timed out and swept (R180 to R185). -/
namespace Sys2Proof.Machine

/-! ### The replies to STREAM_CLOSE and STREAM_ABORT (R181, R183) -/

theorem streamCloseBytes_layout (x : Stream) (newState : StreamState) :
    (streamCloseBytes x newState).length = 17 ∧ StreamCloseLayout x newState (streamCloseBytes x newState) := by
  refine ⟨by simp [streamCloseBytes], ?_⟩
  constructor <;> simp (disch := simp) [streamCloseBytes, numberAt, field_append_left, field_append_right, field_be, field_byte,
    firstRefusedAt_append_left, firstRefusedAt_append_right, firstRefusedAt_bytes]

theorem streamAbortBytes_layout (x : Stream) : StreamAbortLayout x (streamAbortBytes x) := by
  constructor
  case noSweep => intro other; simp [streamAbortBytes, other]
  case sweep =>
    intro sweeping
    simp (disch := simp) [streamAbortBytes, sweeping, numberAt, field_append_left, field_append_right, field_be]
  all_goals simp (disch := simp) [streamAbortBytes, numberAt, field_append_left, field_append_right, field_be]

/-! ### Taking a stream request -/

theorem State.StreamAsks.take {s : State} {k : RequestKind} {r : Routed} (h : s.StreamAsks k r) :
    s.takeStreamRequest k = some (r, (s.dropNextFor .streamUnit).streamHeard) :=
  State.takeStreamRequest_of h.1 h.2.1 h.2.2

/-- Hearing a request moves the idle deadline of an OPEN stream and nothing else (R182). -/
theorem State.streamHeard_eq (s : State) : s.streamHeard =
    { s with stream := { s.stream with
        idleDeadline := if s.stream.state = .opened then some { setAt := s.timebase, duration := 30000 } else s.stream.idleDeadline } } := by
  simp only [State.streamHeard, Stream.restartDeadline]
  split <;> rfl

/-! ### The sweep (R184) -/

theorem Stream.advance_on {x : Stream} (h : x.sweepCursor < 65535) : x.advance = { x with sweepCursor := x.sweepCursor + 1 } := if_pos h

theorem Stream.advance_end {x : Stream} (h : 65535 ≤ x.sweepCursor) :
    x.advance = { x with state := .idle, sweepCursor := 0, raises := x.raises ++ [x.doneRaise] } := if_neg (Nat.not_lt.2 h)

section
variable {s : State}

theorem exec_sweepStep (h : s.nextGrant = some .sweep) : exec .sweepStep s = .next { s.sweepSlot with stream := s.sweepSlot.stream.advance } := by
  simp only [exec, execSweepStep, State.grant_eq_some.2 ⟨h, rfl⟩] <;> rfl

theorem State.sweepSlot_free (h : slotAt s.table.slots s.stream.sweepCursor = none) : s.sweepSlot = s := by simp [State.sweepSlot, h]

variable {row : PassRow} (held : slotAt s.table.slots s.stream.sweepCursor = some row)
include held

theorem State.sweepSlot_current (same : row.generation = s.stream.generation) : s.sweepSlot = s := by
  simp [State.sweepSlot, held, same]

variable (old : row.generation ≠ s.stream.generation)
include old

theorem State.sweepSlot_busy (busy : row.pendingLane ≠ none) :
    s.sweepSlot = { s with stream := { s.stream with sweepKeptBusy := s.stream.sweepKeptBusy + 1 } } := by
  simp [State.sweepSlot, held, old, Option.isSome_iff_ne_none, busy]

theorem State.sweepSlot_refunded (idle : row.pendingLane = none) (refund : row.refund ≠ none) :
    s.sweepSlot = { s with stream := { s.stream with sweepKeptRefunded := s.stream.sweepKeptRefunded + 1 } } := by
  simp [State.sweepSlot, held, old, idle, Option.isSome_iff_ne_none, refund]

theorem State.sweepSlot_deletes (idle : row.pendingLane = none) (unpaid : row.refund = none) :
    s.sweepSlot = { s.deleteRow s.stream.sweepCursor row with stream := { s.stream with sweepDeleted := s.stream.sweepDeleted + 1 } } := by
  simp [State.sweepSlot, held, old, idle, unpaid]

end
end Sys2Proof.Machine

open Sys2Proof Sys2Proof.Machine

/-- Settles O60: the four requests by the state the stream stands in, the expiry, and the sweep by the row under its cursor. -/
theorem streamsEnd : Obligations.StreamsEnd := by
  refine ⟨streamCloseBytes_layout, streamAbortBytes_layout, ?_, ?_, fun s granted => ⟨fun free => ?_, fun row held =>
    ⟨fun same => ?_, fun old => ⟨fun busy => ?_, fun idle refund => ?_, fun idle unpaid => ?_⟩⟩⟩, fun x => ⟨Stream.advance_on, Stream.advance_end⟩⟩
  · rintro s u v rfl rfl
    refine ⟨fun r asks => ⟨fun other => ?_, fun opened => ?_⟩, fun r asks => ⟨fun other => ?_, fun suspended => ?_⟩,
      fun r asks => ⟨fun other => ?_, fun standing => ⟨fun plain => ?_, fun sweeps => ?_⟩⟩, fun r asks => ⟨fun idle => ?_, fun other => ?_⟩⟩
    · simp [exec, execStreamSuspend, asks.take, State.streamHeard_eq, other]
    · simp [exec, execStreamSuspend, asks.take, State.streamHeard_eq, opened]
    · simp only [exec, execStreamResume, asks.take, State.streamHeard_eq, State.dropNextFor_stream, if_neg other]
      rfl
    · simp [exec, execStreamResume, asks.take, State.streamHeard_eq, suspended, Stream.restartDeadline]
    · rcases other with other | other <;> simp [exec, execStreamClose, asks.take, State.streamHeard_eq, other]
    · rcases standing with standing | standing <;>
        simp [exec, execStreamClose, asks.take, State.streamHeard_eq, standing, Stream.close, plain, Stream.closeIdle] <;> rfl
    · rcases standing with standing | standing <;>
        simp [exec, execStreamClose, asks.take, State.streamHeard_eq, standing, Stream.close, sweeps, Stream.closeSweeping] <;> rfl
    · simp [exec, execStreamAbort, asks.take, State.streamHeard_eq, idle]
    · simp [exec, execStreamAbort, asks.take, State.streamHeard_eq, other] <;> rfl
  · intro s d opened free runs due
    have expired : s.stream.idleDue s.timebase = true := by
      simp only [Stream.idleDue, opened, free, runs, Option.any_some, Deadline.expired, due]
      rfl
    exact if_pos expired
  · rw [exec_sweepStep granted, State.sweepSlot_free free]
  · rw [exec_sweepStep granted, State.sweepSlot_current held same]
  · rw [exec_sweepStep granted, State.sweepSlot_busy held old busy]
  · rw [exec_sweepStep granted, State.sweepSlot_refunded held old idle refund]
  · rw [exec_sweepStep granted, State.sweepSlot_deletes held old idle unpaid]
end

section
set_option Elab.async false
/-! How an admission ends by an expiry or a cancellation (R12, R115, R117 to R121). -/
namespace Sys2Proof.Machine

/-! ### What a lane hands on -/

theorem State.laneEnv_discards (s : State) (l : LaneNo) (i : LiftNo) :
    (s.laneEnv l).discards[i] = decide ((s.lift i).resetsPending < (s.lane l).resetsPending) :=
  Vector.getElem_map ..

section
variable (s : State) (l : LaneNo) (i : LiftNo) (n : RequestNo)

/-- A release reaches its lift unless the lift has taken a reset that the lane has still to take (R87). -/
theorem State.tell_release : (s.lane l).tell (s.laneEnv l) i (.release n)
    = { s.lane l with toLifts := s.messagesWith l i [.release n] } := by
  simp only [Lane.tell, State.laneEnv_discards, decide_eq_true_eq, State.messagesWith]
  split <;> rfl

theorem State.tell_leave : (s.lane l).tell (s.laneEnv l) i (.leave n)
    = { s.lane l with toLifts := s.messagesWith l i [.leave n] } := by
  simp only [Lane.tell, State.laneEnv_discards, decide_eq_true_eq, State.messagesWith]
  split <;> rfl

end

theorem Lane.endAdmission_eq (x : Lane) (a : Admission) : x.endAdmission a =
    { x with
      admission := none
      rowOps := if x.resetsPending = 0 then x.rowOps ++ [.closing a.slot a.uid] else x.rowOps } := by
  simp only [Lane.endAdmission, Lane.handRowOp]
  split <;> rfl

/-- A cancelled admission gives its place or its queue entry back and is closed, by its phase (R121). -/
theorem State.cancel_lane {s : State} {l : LaneNo} {a : Admission} (held : (s.lane l).admission = some a) :
    (s.lane l).cancel (s.laneEnv l) =
      { s.lane l with
        admission := none
        rowOps := s.rowOpsWith l [.closing a.slot a.uid]
        toLifts := (match a.phase with
          | some .unlocked => s.messagesWith l a.lift [.release a.request]
          | some .hold => s.messagesWith l a.lift [.leave a.request]
          | none => (s.lane l).toLifts) } := by
  simp only [Lane.cancel, held, Lane.giveUp, Lane.endAdmission_eq]
  rcases a.phase with _ | _ | _ <;> simp only [State.tell_release, State.tell_leave] <;> rfl

/-! ### When a deadline is due -/

theorem Lane.deadlineDue_of {x : Lane} {a : Admission} {phase : Phase} {d : Deadline} {now : Reading} (held : x.admission = some a)
    (stands : a.phase = some phase) (runs : a.deadline = some d) (due : d.duration ≤ (now - d.setAt).toNat) :
    x.deadlineDue phase now = true := by
  simp only [Lane.deadlineDue, held, Option.any_some, stands, runs, Deadline.expired, due]
  simp

end Sys2Proof.Machine

open Sys2Proof Sys2Proof.Machine

/-- Settles O52: each end hands the lift what the phase calls for and the table port the closing operation. -/
theorem admissionsEnd : Obligations.AdmissionsEnd := by
  refine ⟨fun s l a d held phase runs due => ?_, fun s l a d held phase runs due => ?_, ?_⟩
  · have event : exec (.passageWindowExpiry l) s = .next (s.setLane l ((s.lane l).windowExpires (s.laneEnv l) a).settle) := by
      simp only [exec, execPassageWindowExpiry, Lane.deadlineDue_of held phase runs due, State.laneEvent, held]
      rfl
    rw [event, Lane.windowExpires, State.tell_release, Lane.endAdmission_eq]
    refine ⟨fun none => ?_, fun some => ?_⟩
    · rw [if_pos none]; rfl
    · rw [if_neg some]; rfl
  · have event : exec (.holdTimeoutExpiry l) s = .next (s.setLane l ((s.lane l).holdExpires (s.laneEnv l) a).settle) := by
      simp only [exec, execHoldTimeoutExpiry, Lane.deadlineDue_of held phase runs due, State.laneEvent, held]
      rfl
    rw [event, Lane.holdExpires, State.tell_leave, Lane.endAdmission_eq]
    rfl
  · rintro s l uid rest u waits rfl
    have event : exec (.passStatusCancellation l) s
        = .next ({ s with table := { s.table with cancellations := s.table.cancellations.set l rest } }.setLane l
          ((s.lane l).takeCancellation (s.laneEnv l) uid).settle) := by
      simp only [exec, execPassStatusCancellation, waits]
      rfl
    rw [event]
    refine ⟨fun a held same => ?_, fun others => ?_⟩
    · simp only [Lane.takeCancellation, held, if_pos same, State.cancel_lane held]
      rfl
    · have kept : (s.lane l).takeCancellation (s.laneEnv l) uid = s.lane l := by
        cases held : (s.lane l).admission with
        | none => simp [Lane.takeCancellation, held]
        | some a => simp [Lane.takeCancellation, held, others a held]
      rw [kept]
end

section
set_option Elab.async false
/-! What a command can do to a lane, said once: the lane's own events, the decision on a tap, the operations that leave its list, and what
touches none of its laws (chapters 3, 5 and 6). -/
namespace Sys2Proof.Machine

/-! ### What a lane's laws speak of -/

/-- The fields of a lane that its derived state, its served lift and its admission rest on. -/
structure LaneView where
  present : Bool
  keyPosition : KeyPosition
  configuredMode : ConfiguredMode
  actuationFail : Bool
  stuckOpen : Bool
  primaryLift : LiftNo
  secondaryLift : Option LiftNo
  liftInOperation : Vector Bool 4
  servedLift : Option LiftNo
  dayOpen : Bool
  effective : EffectiveState
  admission : Option Admission
  validationInFlight : Bool
  waitingTap : Option Uid

def Lane.view (x : Lane) : LaneView :=
  { present := x.presence.debounced, keyPosition := x.keyPosition, configuredMode := x.configuredMode,
    actuationFail := x.actuationFail, stuckOpen := x.stuckOpen, primaryLift := x.primaryLift, secondaryLift := x.secondaryLift,
    liftInOperation := x.liftInOperation, servedLift := x.servedLift, dayOpen := x.dayOpen, effective := x.effective,
    admission := x.admission, validationInFlight := x.validationInFlight, waitingTap := x.waitingTap }

/-- `y` is as `x` in all that the laws of a lane speak of, but for the row-operation list and the resets to take. -/
structure Lane.Aside (x y : Lane) : Prop where
  view : y.view = x.view
  unlock : y.unlock = x.unlock
  latch : y.latchReleased = x.latchReleased
  drive : y.driveWindow.isSome = x.driveWindow.isSome
  watch : y.releaseWatch.isSome = x.releaseWatch.isSome
  counters : y.counters = x.counters
  errors : x.linkErrors ≤ 65535 → y.linkErrors ≤ 65535

/-! ### The events of a lane -/

/-- What one event at a lane may make of it, before the turnstile settles (R43): all but the decision on a tap and the station reset. -/
inductive Lane.Event (env : LaneEnv) (l : LaneNo) (x : Lane) : Lane → Prop
  | attached (p : Debounce Bool) (present : p.debounced = true) : x.Event env l (Lane.rederive env { x with presence := p })
  | detached (p : Debounce Bool) (absent : p.debounced = false) : x.Event env l (Lane.detach env l { x with presence := p })
  | latchSense (released : Bool) : x.Event env l { x with latchReleased := released }
  | driveExpired (driven : x.unlock = true) : x.Event env l (Lane.latched env l { x with driveWindow := none, actuationFail := true })
  | watchExpired (watched : x.watched = true) : x.Event env l (Lane.latched env l { x with releaseWatch := none, stuckOpen := true })
  | tapped (uid : Uid) : x.Event env l (x.tapArrives uid)
  | emptied : x.Event env l x.takeEmptied
  | keyTurned (present : x.presence.debounced = true) (position : KeyPosition) : x.Event env l (x.turnKey env position)
  | modeSet (mode : ConfiguredMode) : x.Event env l (x.setMode env mode)
  | faultsCleared : x.Event env l (x.clearFaults env)
  | remapped (primary : LiftNo) (secondary : Option LiftNo) (distinct : secondary ≠ some primary) :
      x.Event env l (x.remap env primary secondary)
  | dayOpened : x.Event env l (Lane.rederive env { x with counters := LaneCounters.zero, dayOpen := true })
  | dayClosed : x.Event env l (Lane.rederive env { x with dayOpen := false })
  | changed (i : LiftNo) (inOperation : Bool) : x.Event env l (x.takeChange env i inOperation)
  | placed (i : LiftNo) (n : RequestNo) : x.Event env l (x.takePlace env i n)
  | heldOff (i : LiftNo) (n : RequestNo) : x.Event env l (x.takeHold env i n)
  | refused (i : LiftNo) (n : RequestNo) : x.Event env l (x.takeRefusal env i n)
  | windowExpired (a : Admission) (held : x.admission = some a) : x.Event env l (x.windowExpires env a)
  | holdExpired (a : Admission) (held : x.admission = some a) : x.Event env l (x.holdExpires env a)
  | cancelled (uid : Uid) : x.Event env l (x.takeCancellation env uid)
  | rotated (p : PulseLine) : x.Event env l (Lane.rotates env l { x with rotationLine := p })

/-- What the decision on the tap in flight may make of a lane whose validation has left its list (R92, R99, R100). -/
inductive Lane.Decision (env : LaneEnv) (l : LaneNo) (x : Lane) : Lane → Prop
  | denied (reason : DenyReason) : x.Decision env l (x.deny reason).decisionTaken
  | ignored : x.Decision env l x.decisionTaken
  | granted (slot : Nat) (uid : Uid) (lift : LiftNo) (heads : Nat) (inService : x.effective = .inService) (served : x.servedLift = some lift) :
      x.Decision env l (x.grant env l lift slot uid heads)

/-- What a command other than power-on reset can do to a lane. `pends` says whether the command may end or begin a grant. -/
inductive Lane.Moves (pends : Prop) (stamp : Stamp) (l : LaneNo) (x y : Lane) : Prop
  | aside (h : x.Aside y) (ops : y.rowOps = x.rowOps) (resets : y.resetsPending = x.resetsPending)
  | opTaken {op : RowOp} (h : x.Aside y) (ops : x.rowOps = op :: y.rowOps) (resets : y.resetsPending = x.resetsPending)
      (passage : (∃ slot uid head lift stamp, op = .passage slot uid head lift stamp) ∨ pends)
  | resetStarted (who : pends) (h : x.Aside y) (ops : y.rowOps = []) (resets : y.resetsPending = x.resetsPending + 1)
  | event (env : LaneEnv) (read : env.stamp = stamp) {z : Lane} (h : x.Event env l z) (settles : y = z.settle)
  | decided (who : pends) (env : LaneEnv) {uid : Uid} {rest : List RowOp} (ops : x.rowOps = .validate uid :: rest) {z : Lane}
      (h : Lane.Decision env l { x with rowOps := rest } z) (settles : y = z.settle)
  | reset (who : pends) (waits : x.resetsPending ≠ 0) (settles : y = x.stationReset.settle)

/-- What a lane event reads of the day clock (R111). -/
def State.stamp (s : State) : Stamp := { day := s.calendar.currentDay, second := s.calendar.secondOfDay }

/-- Every lane moves as a command may move it. -/
def State.LanesMove (s : State) (pends : Prop) (t : State) : Prop := ∀ l, Lane.Moves pends s.stamp l (s.lane l) (t.lane l)

theorem Answers.of {P : State → Prop} {t : State} (h : P t) : Answers P (.next t) := ⟨t, rfl, h⟩

section
variable {pends : Prop} {s t u : State} {l : LaneNo} {x y : Lane}

theorem Lane.Aside.refl (x : Lane) : x.Aside x := ⟨rfl, rfl, rfl, rfl, rfl, rfl, id⟩

theorem Lane.Moves.refl {stamp : Stamp} (l : LaneNo) (x : Lane) : Lane.Moves pends stamp l x x := .aside (.refl x) rfl rfl

theorem State.LanesMove.refl (s : State) : s.LanesMove pends s := fun l => .refl l _

theorem State.LanesMove.of_lanes (same : ∀ l, t.lane l = s.lane l) : s.LanesMove pends t := fun l => same l ▸ .refl l _

/-- What follows a lane's own event and leaves the lanes alone. -/
theorem State.LanesMove.then (h : s.LanesMove pends t) (same : ∀ l, u.lane l = t.lane l) : s.LanesMove pends u := fun l => same l ▸ h l

theorem State.LanesMove.answered {place : Option Nat} {code : ReplyCode} {fields : List Byte} (h : s.LanesMove pends t) :
    s.LanesMove pends (t.answer place code fields) := h.then fun l => by simp

theorem State.LanesMove.jointAnswered {place : Option Nat} {changed flagged : Bool} {store : Settings → Settings} (h : s.LanesMove pends t) :
    s.LanesMove pends (t.jointAnswer place changed flagged store) := h.then fun l => by simp

/-- One lane moves, and the others stay. -/
theorem State.LanesMove.of_setLane (lanes : u.lanes = s.lanes) (moves : Lane.Moves pends s.stamp l (s.lane l) y) :
    s.LanesMove pends (u.setLane l y) := fun m => by
  by_cases same : m = l
  · subst same; rwa [State.setLane_lane_same]
  · rw [State.setLane_lane_other u y same, State.lane_ext lanes]; exact .refl m _

theorem State.LanesMove.of_aside (lanes : u.lanes = s.lanes) (h : (s.lane l).Aside y) (ops : y.rowOps = (s.lane l).rowOps)
    (resets : y.resetsPending = (s.lane l).resetsPending) : s.LanesMove pends (u.setLane l y) :=
  .of_setLane lanes (.aside h ops resets)

/-- An event at a lane, read with the clock of the state. -/
theorem State.LanesMove.of_event {f : LaneEnv → Lane → Lane} (lanes : u.lanes = s.lanes) (clock : u.stamp = s.stamp)
    (h : Lane.Event (u.laneEnv l) l (s.lane l) (f (u.laneEnv l) (s.lane l))) : s.LanesMove pends (u.laneEvent l f) :=
  .of_setLane lanes (.event (u.laneEnv l) clock h (by rw [State.lane_ext lanes]))

end

/-! ### Each command at its lane -/

section
variable {pends : Prop} (s : State) (l : LaneNo) (i : LiftNo)

theorem Lane.hears_key {x : Lane} {frame : List Byte} {heard : LaneFrame} (h : x.hears frame = some heard) : x.presence.debounced = true := by
  cases present : x.presence.debounced with
  | true => rfl
  | false => simp [Lane.hears, present] at h

theorem State.dropFrame_moves : s.LanesMove pends (s.dropFrame l) :=
  .of_aside rfl ⟨rfl, rfl, rfl, rfl, rfl, rfl, fun h => by simp only [bump]; split <;> omega⟩ rfl rfl

theorem execLaneStationReset_moves (who : pends) : Answers (s.LanesMove pends) (execLaneStationReset l s) := by
  unfold execLaneStationReset
  split
  · exact .of (.refl s)
  · next waits => exact .of (.of_setLane rfl (.reset who waits rfl))

theorem execLiftStationReset_moves : Answers (s.LanesMove pends) (execLiftStationReset i s) := by
  unfold execLiftStationReset
  split
  · exact .of (.refl s)
  · refine .of fun l => ?_
    have forgot : Vector.get (s.lanes.map (Lane.forget i)) l = Lane.forget i (s.lane l) := Vector.getElem_map ..
    exact .aside (y := Vector.get (s.lanes.map (Lane.forget i)) l) (forgot ▸ ⟨rfl, rfl, rfl, rfl, rfl, rfl, id⟩) (forgot ▸ rfl) (forgot ▸ rfl)

theorem execStationReset_moves (who : pends) : Answers (s.LanesMove pends) (execStationReset s) := by
  unfold execStationReset
  split
  · exact .of (.refl s)
  · refine .of fun l => ?_
    rw [State.startReset_lane]
    exact .resetStarted who ⟨rfl, rfl, rfl, rfl, rfl, rfl, id⟩ rfl rfl

theorem execNoticeRaise_moves (source : RaiseSource) : Answers (s.LanesMove pends) (execNoticeRaise source s) := by
  unfold execNoticeRaise
  split
  · exact .of (.refl s)
  · cases source
    case lane l => exact .of (.of_aside rfl ⟨rfl, rfl, rfl, rfl, rfl, rfl, id⟩ rfl rfl)
    all_goals exact .of (.refl s)

theorem execPassageRecordTake_moves (owner : RecordOwner) : Answers (s.LanesMove pends) (execPassageRecordTake owner s) := by
  unfold execPassageRecordTake
  split
  · exact .of (.refl s)
  · cases owner
    case lane l => exact .of (.of_aside rfl ⟨rfl, rfl, rfl, rfl, rfl, rfl, id⟩ rfl rfl)
    all_goals exact .of (.refl s)

theorem execLaneDayOpen_moves : Answers (s.LanesMove pends) (execLaneDayOpen l s) := by
  unfold execLaneDayOpen
  split
  · exact .of (.of_event rfl rfl .dayOpened)
  · exact .of (.refl s)

theorem execLaneDayClose_moves : Answers (s.LanesMove pends) (execLaneDayClose l s) := by
  unfold execLaneDayClose
  split
  · exact .of (.of_event rfl rfl .dayClosed)
  · exact .of (.refl s)

theorem State.takeMode_moves (kind : RequestKind) (mode : ConfiguredMode) : s.LanesMove pends (s.takeMode l kind mode) := by
  unfold State.takeMode
  split
  · exact .refl s
  · next r s' taken =>
    obtain ⟨-, -, rfl⟩ := State.takeRequest_eq_some.1 taken
    exact State.LanesMove.jointAnswered (.of_event rfl rfl (.modeSet mode))

theorem execLaneFaultClear_moves : Answers (s.LanesMove pends) (execLaneFaultClear l s) := by
  unfold execLaneFaultClear
  split
  · exact .of (.refl s)
  · next r s' taken =>
    obtain ⟨-, -, rfl⟩ := State.takeRequest_eq_some.1 taken
    exact .of (State.LanesMove.jointAnswered (.of_event rfl rfl .faultsCleared))

/-- A legal mapping never names its primary lift twice (check 2 of R63). -/
theorem LaneForm.mapping_distinct {f : LaneForm} {primary : LiftNo} {secondary : Option LiftNo} (h : f.mapping = some (primary, secondary)) :
    secondary ≠ some primary := by
  unfold LaneForm.mapping at h
  repeat' split at h
  all_goals simp only [Option.some.injEq, Prod.mk.injEq, reduceCtorEq] at h
  · obtain ⟨rfl, rfl⟩ := h; simp
  · next v _ _ other =>
    obtain ⟨rfl, rfl⟩ := h
    simpa using other

theorem execLaneConfig_moves : Answers (s.LanesMove pends) (execLaneConfig l s) := by
  unfold execLaneConfig
  split
  · exact .of (.refl s)
  · next r s' taken =>
    obtain ⟨-, -, rfl⟩ := State.takeRequest_eq_some.1 taken
    split
    · exact .of (.of_lanes fun m => by simp)
    · next primary secondary mapping =>
      split
      · exact .of (.of_lanes fun m => by simp)
      · exact .of (State.LanesMove.answered (.of_event rfl rfl (.remapped _ _ (LaneForm.mapping_distinct mapping))))

theorem execPresentLineChange_moves (present : Bool) : Answers (s.LanesMove pends) (execPresentLineChange l present s) := by
  refine .of (.of_aside rfl ⟨?_, rfl, rfl, rfl, rfl, rfl, id⟩ rfl rfl)
  unfold Lane.view Debounce.lineTakes
  split <;> rfl

theorem execPresenceDebounceExpiry_moves : Answers (s.LanesMove pends) (execPresenceDebounceExpiry l s) := by
  unfold execPresenceDebounceExpiry
  split
  · refine .of (.of_event rfl rfl ?_)
    dsimp only
    split
    · next present => exact .attached _ present
    · next absent => exact .detached _ (by simpa using absent)
  · exact .of (.refl s)

theorem execLatchSenseChange_moves (released : Bool) : Answers (s.LanesMove pends) (execLatchSenseChange l released s) := by
  unfold execLatchSenseChange
  split
  · exact .of (.refl s)
  · exact .of (.of_event rfl rfl (.latchSense released))

theorem execDriveWindowExpiry_moves : Answers (s.LanesMove pends) (execDriveWindowExpiry l s) := by
  unfold execDriveWindowExpiry
  split
  · next due =>
    simp only [Bool.and_eq_true] at due
    exact .of (.of_event rfl rfl (.driveExpired due.1.2))
  · exact .of (.refl s)

theorem execReleaseWatchExpiry_moves : Answers (s.LanesMove pends) (execReleaseWatchExpiry l s) := by
  unfold execReleaseWatchExpiry
  split
  · next due =>
    rw [Bool.and_eq_true] at due
    exact .of (.of_event rfl rfl (.watchExpired due.2))
  · exact .of (.refl s)

theorem execTap_moves (frame : List Byte) : Answers (s.LanesMove pends) (execTap l frame s) := by
  unfold execTap
  split
  · next uid _ => exact .of (.of_event rfl rfl (.tapped uid))
  · exact .of (s.dropFrame_moves l)
  · exact .of (.refl s)
  · exact .of (.refl s)

theorem execKey_moves (frame : List Byte) : Answers (s.LanesMove pends) (execKey l frame s) := by
  unfold execKey
  split
  · next position heard => exact .of (.of_event rfl rfl (.keyTurned (Lane.hears_key heard) position))
  · exact .of (s.dropFrame_moves l)
  · exact .of (.refl s)
  · exact .of (.refl s)

theorem execLaneFrameDrop_moves (frame : List Byte) : Answers (s.LanesMove pends) (execLaneFrameDrop l frame s) := by
  unfold execLaneFrameDrop
  split
  · exact .of (s.dropFrame_moves l)
  all_goals exact .of (.refl s)

theorem execWaitingTapTake_moves : Answers (s.LanesMove pends) (execWaitingTapTake l s) := by
  unfold execWaitingTapTake
  split
  · exact .of (.refl s)
  · exact .of (.of_event rfl rfl .emptied)

theorem execShowSend_moves (receiving : Bool) : Answers (s.LanesMove pends) (execShowSend l receiving s) := by
  unfold execShowSend
  dsimp only
  split
  · exact .of (.refl s)
  · exact .of (.of_aside rfl ⟨rfl, rfl, rfl, rfl, rfl, rfl, id⟩ rfl rfl)

theorem execShowSent_moves : Answers (s.LanesMove pends) (execShowSent l s) :=
  .of (.of_aside rfl ⟨rfl, rfl, rfl, rfl, rfl, rfl, id⟩ rfl rfl)

theorem execRotation_moves (active : Bool) : Answers (s.LanesMove pends) (execRotation l active s) := by
  unfold execRotation
  dsimp only
  split
  · refine .of fun m => ?_
    by_cases same : m = l
    · subst same
      rw [State.laneEvent_lane_same, State.setLane_lane_same]
      exact .event _ rfl (.rotated _) rfl
    · rw [State.laneEvent_lane_other _ _ same, State.setLane_lane_other _ _ same]
      exact .refl m _
  · exact .of (.of_aside rfl ⟨rfl, rfl, rfl, rfl, rfl, rfl, id⟩ rfl rfl)

theorem execPassageWindowExpiry_moves : Answers (s.LanesMove pends) (execPassageWindowExpiry l s) := by
  unfold execPassageWindowExpiry
  split
  · refine .of (.of_event rfl rfl ?_)
    cases held : (s.lane l).admission with
    | some a => exact .windowExpired a held
    | none => simp [Lane.deadlineDue, held] at *
  · exact .of (.refl s)

theorem execHoldTimeoutExpiry_moves : Answers (s.LanesMove pends) (execHoldTimeoutExpiry l s) := by
  unfold execHoldTimeoutExpiry
  split
  · refine .of (.of_event rfl rfl ?_)
    cases held : (s.lane l).admission with
    | some a => exact .holdExpired a held
    | none => simp [Lane.deadlineDue, held] at *
  · exact .of (.refl s)

theorem execPassStatusCancellation_moves : Answers (s.LanesMove pends) (execPassStatusCancellation l s) := by
  unfold execPassStatusCancellation
  split
  · exact .of (.refl s)
  · next uid rest _ => exact .of (.of_event rfl rfl (.cancelled uid))

theorem State.liftTakes_moves (y : Lift) : s.LanesMove pends (s.liftTakes l i y) :=
  State.LanesMove.then (t := s.setLane l { s.lane l with toLifts := (s.lane l).toLifts.set i (s.lane l).toLifts[i].tail })
    (.of_aside rfl ⟨rfl, rfl, rfl, rfl, rfl, rfl, id⟩ rfl rfl) fun _ => rfl

theorem execPlaceRequest_moves : Answers (s.LanesMove pends) (execPlaceRequest l i s) := by
  unfold execPlaceRequest
  split
  · exact .of (s.liftTakes_moves l i _)
  · exact .of (.refl s)

theorem execLiftPassage_moves : Answers (s.LanesMove pends) (execLiftPassage l i s) := by
  unfold execLiftPassage
  split
  · exact .of (s.liftTakes_moves l i _)
  · exact .of (.refl s)

theorem execRelease_moves : Answers (s.LanesMove pends) (execRelease l i s) := by
  unfold execRelease
  split
  · exact .of (s.liftTakes_moves l i _)
  · exact .of (.refl s)

theorem execLeave_moves : Answers (s.LanesMove pends) (execLeave l i s) := by
  unfold execLeave
  split
  · exact .of (s.liftTakes_moves l i _)
  · exact .of (.refl s)

theorem execLiftFreePassage_moves : Answers (s.LanesMove pends) (execLiftFreePassage l i s) := by
  unfold execLiftFreePassage
  split
  · exact .of (s.liftTakes_moves l i _)
  · exact .of (.refl s)

theorem execLiftIntrusion_moves : Answers (s.LanesMove pends) (execLiftIntrusion l i s) := by
  unfold execLiftIntrusion
  split
  · exact .of (s.liftTakes_moves l i _)
  · exact .of (.refl s)

theorem execPlace_moves : Answers (s.LanesMove pends) (execPlace l i s) := by
  unfold execPlace
  split
  · next n _ => exact .of (.of_event rfl rfl (.placed i n))
  · exact .of (.refl s)

theorem execHold_moves : Answers (s.LanesMove pends) (execHold l i s) := by
  unfold execHold
  split
  · next n _ => exact .of (.of_event rfl rfl (.heldOff i n))
  · exact .of (.refl s)

theorem execRefusal_moves : Answers (s.LanesMove pends) (execRefusal l i s) := by
  unfold execRefusal
  split
  · next n _ => exact .of (.of_event rfl rfl (.refused i n))
  · exact .of (.refl s)

theorem execInOperationChange_moves : Answers (s.LanesMove pends) (execInOperationChange l i s) := by
  unfold execInOperationChange
  split
  · next inOperation _ => exact .of (.of_event rfl rfl (.changed i inOperation))
  · exact .of (.refl s)

theorem execConfig_moves : Answers (s.LanesMove pends) (execConfig (.lane l) s) := by
  unfold execConfig
  dsimp only
  split
  · exact .of (.refl s)
  · next r s' taken =>
    obtain ⟨-, -, rfl⟩ := State.takeRequest_eq_some.1 taken
    exact .of (State.LanesMove.jointAnswered (.of_aside rfl ⟨rfl, rfl, rfl, rfl, rfl, rfl, id⟩ rfl rfl))

/-! ### The row operations of a lane -/

theorem State.rowOpTaken_moves {op : RowOp} (waits : (s.lane l).rowOps.head? = some op)
    (passage : (∃ slot uid head lift stamp, op = .passage slot uid head lift stamp) ∨ pends) :
    s.LanesMove pends ((s.granted (.lane l)).dropRowOp l) := by
  obtain ⟨rest, ops⟩ := List.head?_eq_some_iff.1 waits
  exact .of_setLane rfl (.opTaken ⟨rfl, rfl, rfl, rfl, rfl, rfl, id⟩
    (by rw [ops]; simp [ops]) rfl passage)

theorem execPassageCommit_moves : Answers (s.LanesMove pends) (execPassageCommit l s) := by
  unfold execPassageCommit
  repeat' split
  · next taken _ =>
    obtain ⟨-, waits, rfl⟩ := State.takeRowOp_eq_some.1 taken
    refine .of ((s.rowOpTaken_moves l waits (.inl ⟨_, _, _, _, _, rfl⟩)).then fun m => ?_)
    simp only [State.commit]
    split <;> rfl
  · exact .of (.refl s)
  · exact .of (.refl s)

theorem execHeadRecord_moves : Answers (s.LanesMove pends) (execHeadRecord l s) := by
  unfold execHeadRecord
  repeat' split
  · exact .of (.refl s)
  · next taken _ =>
    obtain ⟨-, waits, rfl⟩ := State.takeRowOp_eq_some.1 taken
    refine .of ((s.rowOpTaken_moves l waits (.inl ⟨_, _, _, _, _, rfl⟩)).then fun m => ?_)
    simp only [State.recordHead]
    split <;> rfl
  · exact .of (.refl s)

theorem execClosingRowOperation_moves (who : pends) : Answers (s.LanesMove pends) (execClosingRowOperation l s) := by
  unfold execClosingRowOperation
  split
  · next taken =>
    obtain ⟨-, waits, rfl⟩ := State.takeRowOp_eq_some.1 taken
    refine .of ((s.rowOpTaken_moves l waits (.inr who)).then fun m => ?_)
    simp only [State.closeRow]
    repeat' split
    all_goals rfl
  · exact .of (.refl s)

/-- The decision on a tap, at the lane whose validation has left its list. -/
theorem State.LanesMove.of_decision {u v : State} {uid : Uid} {rest : List RowOp} {f : LaneEnv → Lane → Lane} (who : pends)
    (ops : (s.lane l).rowOps = .validate uid :: rest) (lanes : u.lanes = ((s.granted (.lane l)).dropRowOp l).lanes)
    (h : ∀ env, Lane.Decision env l { s.lane l with rowOps := rest } (f env { s.lane l with rowOps := rest })) (moved : v = u.laneEvent l f) :
    s.LanesMove pends v := by
  subst moved
  intro m
  by_cases same : m = l
  · subst same
    have dropped : u.lane m = { s.lane m with rowOps := rest } := by
      rw [State.lane_ext lanes, State.dropRowOp, State.setLane_lane_same]
      simp [ops]
    rw [State.laneEvent_lane_same, dropped]
    exact .decided who _ ops (h _) rfl
  · rw [State.laneEvent_lane_other _ _ same, State.lane_ext lanes, State.dropRowOp, State.setLane_lane_other _ _ same]
    exact .refl m _

theorem execValidation_moves (who : pends) : Answers (s.LanesMove pends) (execValidation l s) := by
  unfold execValidation
  split
  · exact .of (.refl s)
  split
  · next uid s' taken =>
    obtain ⟨-, waits, rfl⟩ := State.takeRowOp_eq_some.1 taken
    obtain ⟨rest, ops⟩ := List.head?_eq_some_iff.1 waits
    have dropped : ((s.granted (.lane l)).dropRowOp l).lane l = { s.lane l with rowOps := rest } := by
      rw [State.dropRowOp, State.setLane_lane_same]
      simp [ops]
    have decided {u : State} {f : LaneEnv → Lane → Lane} (lanes : u.lanes = ((s.granted (.lane l)).dropRowOp l).lanes)
        (h : ∀ env, Lane.Decision env l { s.lane l with rowOps := rest } (f env { s.lane l with rowOps := rest })) :
        s.LanesMove pends (u.laneEvent l f) := .of_decision s l who ops lanes h rfl
    refine .of ?_
    simp only [State.validate, State.validateServed, dropped]
    split
    · next inService =>
      split
      · exact decided rfl fun _ => .denied _
      · next lift served =>
        split
        · exact decided rfl fun _ => .denied _
        · next slot row _ => exact decided rfl fun _ => .granted slot uid lift row.headcount inService served
    · split
      · exact decided rfl fun _ => .denied _
      · exact decided rfl fun _ => .ignored
  · exact .of (.refl s)

end

/-- Every command but power-on reset moves each lane as `Lane.Moves` says; only the four that settle grants may begin or end one. -/
theorem exec_lanes {c : Instr} {s t : State} {pends : Prop} (h : exec c s = .next t) (on : c ≠ .powerOnReset)
    (who : settlesGrants c = true → pends) : s.LanesMove pends t := by
  by_cases still : Part.lanes ∉ Part.writtenBy c
  · exact .of_lanes fun l => State.lane_ext (exec_frame h .lanes still) l
  suffices moves : Answers (s.LanesMove pends) (exec c s) by rwa [h, answers_next] at moves
  cases c
  case powerOnReset => exact absurd rfl on
  case laneStationReset => exact execLaneStationReset_moves s _ (who rfl)
  case liftStationReset => exact execLiftStationReset_moves s _
  case stationReset => exact execStationReset_moves s (who rfl)
  case laneDayOpen => exact execLaneDayOpen_moves s _
  case laneDayClose => exact execLaneDayClose_moves s _
  case laneRelease => exact .of (s.takeMode_moves _ _ _)
  case laneLock => exact .of (s.takeMode_moves _ _ _)
  case laneFaultClear => exact execLaneFaultClear_moves s _
  case laneConfig => exact execLaneConfig_moves s _
  case presentLineChange => exact execPresentLineChange_moves s _ _
  case presenceDebounceExpiry => exact execPresenceDebounceExpiry_moves s _
  case latchSenseChange => exact execLatchSenseChange_moves s _ _
  case driveWindowExpiry => exact execDriveWindowExpiry_moves s _
  case releaseWatchExpiry => exact execReleaseWatchExpiry_moves s _
  case tap => exact execTap_moves s _ _
  case key => exact execKey_moves s _ _
  case laneFrameDrop => exact execLaneFrameDrop_moves s _ _
  case waitingTapTake => exact execWaitingTapTake_moves s _
  case validation => exact execValidation_moves s _ (who rfl)
  case showSend => exact execShowSend_moves s _ _
  case showSent => exact execShowSent_moves s _
  case rotation => exact execRotation_moves s _ _
  case passageCommit => exact execPassageCommit_moves s _
  case headRecord => exact execHeadRecord_moves s _
  case closingRowOperation => exact execClosingRowOperation_moves s _ (who rfl)
  case passageWindowExpiry => exact execPassageWindowExpiry_moves s _
  case holdTimeoutExpiry => exact execHoldTimeoutExpiry_moves s _
  case passStatusCancellation => exact execPassStatusCancellation_moves s _
  case placeRequest => exact execPlaceRequest_moves s _ _
  case liftPassage => exact execLiftPassage_moves s _ _
  case release => exact execRelease_moves s _ _
  case leave => exact execLeave_moves s _ _
  case liftFreePassage => exact execLiftFreePassage_moves s _ _
  case liftIntrusion => exact execLiftIntrusion_moves s _ _
  case place => exact execPlace_moves s _ _
  case hold => exact execHold_moves s _ _
  case refusal => exact execRefusal_moves s _ _
  case inOperationChange => exact execInOperationChange_moves s _ _
  case noticeRaise => exact execNoticeRaise_moves s _
  case passageRecordTake => exact execPassageRecordTake_moves s _
  case config owner =>
    cases owner
    case lane l => exact execConfig_moves s l
    all_goals exact absurd (by simp [Part.writtenBy]) still
  all_goals exact absurd (by simp [Part.writtenBy]) still

end Sys2Proof.Machine
end

section
set_option Elab.async false
/-! O14, first part: every lane keeps its derived state, its served lift, its admission and its windows together, and its counters in range
(R47, R53, R54, R56 to R58, R63, R64, R73, R74, R105). -/
namespace Sys2Proof.Machine

/-! ### The part of the law that an event must leave; the turnstile follows when it settles -/

/-- The law of a lane but for its UNLOCK line and its two windows, which `Lane.settle` sets. -/
structure Lane.Core (x : Lane) : Prop where
  mapping : x.secondaryLift ≠ some x.primaryLift
  served : x.servedLift = x.derivedLift
  state : x.effective = x.derived
  admitted : ∀ a, x.admission = some a → x.effective = .inService ∧ x.servedLift = some a.lift
  phase : ∀ a, x.admission = some a →
    (a.deadline.isSome = true ↔ a.phase.isSome = true) ∧ (a.holdStart.isSome = true ↔ a.phase = some .hold)
  detached : x.presence.debounced = false → x.actuationFail = false ∧ x.stuckOpen = false ∧ x.keyPosition = .normal
  waiting : x.waitingTap.isSome = true → x.validationInFlight = true

/-- A lane about to re-derive its effective state: the state it holds may be stale, and its admission is for the served lift if it is to stay. -/
structure Lane.Ready (x : Lane) : Prop where
  mapping : x.secondaryLift ≠ some x.primaryLift
  served : x.servedLift = x.derivedLift
  admitted : ∀ a, x.admission = some a → x.effective = .inService ∧ (x.derived = .inService → x.servedLift = some a.lift)
  phase : ∀ a, x.admission = some a →
    (a.deadline.isSome = true ↔ a.phase.isSome = true) ∧ (a.holdStart.isSome = true ↔ a.phase = some .hold)
  detached : x.presence.debounced = false → x.actuationFail = false ∧ x.stuckOpen = false ∧ x.keyPosition = .normal
  waiting : x.waitingTap.isSome = true → x.validationInFlight = true

section
variable {x y z : Lane} {env : LaneEnv} {l : LaneNo}

/-! ### The derived state and lift -/

theorem Lane.derived_of_view (h : y.view = x.view) : y.derived = x.derived := by
  simp only [Lane.view, LaneView.mk.injEq] at h
  simp [Lane.derived, h]

theorem Lane.derivedLift_of_view (h : y.view = x.view) : y.derivedLift = x.derivedLift := by
  simp only [Lane.view, LaneView.mk.injEq] at h
  simp [Lane.derivedLift, h]

theorem Lane.derived_detached (absent : x.presence.debounced = false) : x.derived = .detached := by simp [Lane.derived, absent]

theorem Lane.servedLift_of_derived (h : x.derived = .inService) : x.servedLift ≠ none := fun unserved => by
  unfold Lane.derived at h
  repeat' split at h
  all_goals simp_all

@[simp] theorem Lane.rederive_derived (x : Lane) (env : LaneEnv) : (x.rederive env).derived = x.derived := by simp [Lane.derived]

@[simp] theorem Lane.rederive_derivedLift (x : Lane) (env : LaneEnv) : (x.rederive env).derivedLift = x.derivedLift := by simp [Lane.derivedLift]

/-- A re-derivation that changes the state of an IN_SERVICE lane ends its admission (R54). -/
theorem Lane.rederive_admission (x : Lane) (env : LaneEnv) :
    (x.rederive env).admission = if x.derived ≠ x.effective ∧ x.effective = .inService then none else x.admission := by
  unfold Lane.rederive
  split
  · next same => simp [same]
  · next changed =>
    split
    · next inService => rw [if_pos ⟨changed, inService⟩]; simp
    · next other => simp [other]

@[simp] theorem Lane.cancel_derived (x : Lane) (env : LaneEnv) : (x.cancel env).derived = x.derived := by simp [Lane.derived]

@[simp] theorem Lane.cancel_derivedLift (x : Lane) (env : LaneEnv) : (x.cancel env).derivedLift = x.derivedLift := by simp [Lane.derivedLift]

/-! ### What an event's own part leaves of the view -/

@[simp] theorem Lane.tell_view (i : LiftNo) (m : LaneMessage) : (x.tell env i m).view = x.view := by simp [Lane.view]

@[simp] theorem Lane.handRowOp_view (op : RowOp) : (x.handRowOp op).view = x.view := by simp [Lane.view]

@[simp] theorem Lane.show_view (g : Signal) (r : ShowReason) (n : Nat) : (x.show g r n).view = x.view := rfl

@[simp] theorem Lane.raise_view (r : Raise) : (x.raise r).view = x.view := rfl

@[simp] theorem Lane.count_view (f : LaneCounters → LaneCounters) : (x.count f).view = x.view := rfl

@[simp] theorem Lane.deny_view (r : DenyReason) : (x.deny r).view = x.view := by simp [Lane.view]

@[simp] theorem Lane.freePassage_view : (x.freePassage env l).view = x.view := by simp [Lane.view]

@[simp] theorem Lane.intrusion_view : (x.intrusion env l).view = x.view := by simp [Lane.view]

@[simp] theorem Lane.endAdmission_view (a : Admission) : (x.endAdmission a).view = { x.view with admission := none } := by simp [Lane.view]

@[simp] theorem Lane.cancel_view : (x.cancel env).view = { x.view with admission := none } := by simp [Lane.view]

@[simp] theorem Lane.requestPlace_view (a : Admission) : (x.requestPlace env a).view =
    { x.view with admission := some { a with request := x.lastRequest + 1, phase := none, deadline := none, holdStart := none } } := by
  simp [Lane.view, Lane.requestPlace]

@[simp] theorem Lane.decisionTaken_view : x.decisionTaken.view = { x.view with validationInFlight := false, waitingTap := none } := rfl

/-! ### From core to core -/

/-- The admission, the validation in flight and the waiting tap change, the rest of the view stays. -/
theorem Lane.Core.carry (hx : x.Core) {admission : Option Admission} {flying : Bool} {tap : Option Uid}
    (h : y.view = { x.view with admission := admission, validationInFlight := flying, waitingTap := tap })
    (admitted : ∀ a, admission = some a → x.effective = .inService ∧ x.servedLift = some a.lift)
    (phase : ∀ a, admission = some a →
      (a.deadline.isSome = true ↔ a.phase.isSome = true) ∧ (a.holdStart.isSome = true ↔ a.phase = some .hold))
    (waiting : tap.isSome = true → flying = true) : y.Core := by
  have derived : y.derived = x.derived :=
    Lane.derived_of_view (x := { x with admission := admission, validationInFlight := flying, waitingTap := tap }) h
  have lift : y.derivedLift = x.derivedLift :=
    Lane.derivedLift_of_view (x := { x with admission := admission, validationInFlight := flying, waitingTap := tap }) h
  simp only [Lane.view, LaneView.mk.injEq] at h
  obtain ⟨present, key, -, actuation, stuck, primary, secondary, -, served, -, effective, held, inFlight, taps⟩ := h
  constructor
  case mapping => rw [primary, secondary]; exact hx.mapping
  case served => rw [lift, served]; exact hx.served
  case state => rw [derived, effective]; exact hx.state
  case admitted => rw [held, effective, served]; exact admitted
  case phase => rw [held]; exact phase
  case detached => rw [present, actuation, stuck, key]; exact hx.detached
  case waiting => rw [taps, inFlight]; exact waiting

theorem Lane.Core.of_view (hx : x.Core) (h : y.view = x.view) : y.Core := hx.carry h hx.admitted hx.phase hx.waiting

/-- The admission ends (R115). -/
theorem Lane.Core.ended (hx : x.Core) (h : y.view = { x.view with admission := none }) : y.Core :=
  hx.carry h (by simp) (by simp) hx.waiting

theorem Lane.Core.cancelled (hx : x.Core) : (x.cancel env).Core := hx.ended Lane.cancel_view

/-- A re-derivation restores the derived state, and ends an admission that may not stay (R54). -/
theorem Lane.Ready.rederived (hx : x.Ready) : (x.rederive env).Core := by
  have kept {a : Admission} (held : (x.rederive env).admission = some a) : x.admission = some a ∧ x.derived = .inService := by
    rw [Lane.rederive_admission] at held
    split at held
    · simp at held
    · next stays =>
      have inService := (hx.admitted a held).1
      exact ⟨held, by simpa [inService] using stays⟩
  constructor
  case mapping => simpa using hx.mapping
  case served => simpa using hx.served
  case state => simp
  case admitted =>
    intro a held
    obtain ⟨held, inService⟩ := kept held
    simpa using ⟨inService, (hx.admitted a held).2 inService⟩
  case phase => exact fun a held => hx.phase a (kept held).1
  case detached => simpa using hx.detached
  case waiting => simpa using hx.waiting

/-- An event that leaves mapping, lifts and admission alone makes the lane ready to re-derive. -/
theorem Lane.Core.ready (hx : x.Core)
    (h : y.view = { x.view with
      present := y.view.present, keyPosition := y.view.keyPosition, configuredMode := y.view.configuredMode, dayOpen := y.view.dayOpen,
      actuationFail := y.view.actuationFail, stuckOpen := y.view.stuckOpen, waitingTap := y.view.waitingTap })
    (detached : y.presence.debounced = false → y.actuationFail = false ∧ y.stuckOpen = false ∧ y.keyPosition = .normal)
    (waiting : y.waitingTap.isSome = true → x.validationInFlight = true) : y.Ready := by
  simp only [Lane.view, LaneView.mk.injEq, true_and, and_true] at h
  obtain ⟨primary, secondary, inOperation, served, effective, held, inFlight⟩ := h
  constructor
  case mapping => rw [primary, secondary]; exact hx.mapping
  case served => rw [served, hx.served]; simp [Lane.derivedLift, primary, secondary, inOperation]
  case admitted => rw [held, effective, served]; exact fun a ha => ⟨(hx.admitted a ha).1, fun _ => (hx.admitted a ha).2⟩
  case phase => rw [held]; exact hx.phase
  case detached => exact detached
  case waiting => rw [inFlight]; exact waiting

/-- A lane whose mapping or lifts have just changed: its served lift may be stale, its state and admission are those of the lift it held. -/
structure Lane.Moved (x : Lane) : Prop where
  mapping : x.secondaryLift ≠ some x.primaryLift
  state : x.effective = x.derived
  admitted : ∀ a, x.admission = some a → x.effective = .inService ∧ x.servedLift = some a.lift
  phase : ∀ a, x.admission = some a →
    (a.deadline.isSome = true ↔ a.phase.isSome = true) ∧ (a.holdStart.isSome = true ↔ a.phase = some .hold)
  detached : x.presence.debounced = false → x.actuationFail = false ∧ x.stuckOpen = false ∧ x.keyPosition = .normal
  waiting : x.waitingTap.isSome = true → x.validationInFlight = true

/-- The lane with another served lift. -/
def Lane.serving (x : Lane) (lift : Option LiftNo) : Lane := { x with servedLift := lift }

/-- The mapping and the in-operation a lane holds change, and the served lift is derived again (R73, R74). -/
theorem Lane.Moved.rederivedLift (hx : x.Moved) (cause : ServedCause) : (x.rederiveLift env cause).Core := by
  unfold Lane.rederiveLift
  split
  · next same => exact ⟨hx.mapping, same.symm, hx.state, hx.admitted, hx.phase, hx.detached, hx.waiting⟩
  · next changed =>
    split
    · next free =>
      exact Lane.Ready.rederived (x := x.serving x.derivedLift)
        ⟨hx.mapping, rfl, by simp [Lane.serving, free], by simp [Lane.serving, free], hx.detached, hx.waiting⟩
    · next a held =>
      split
      · next stays =>
        have unserved : x.derivedLift = none := by
          cases lift : x.derivedLift with
          | none => rfl
          | some i =>
            have same : i = a.lift := by simpa [servedLiftCancels, lift] using stays
            exact absurd (by rw [lift, same, (hx.admitted a held).2]) changed
        refine Lane.Ready.rederived (x := x.serving x.derivedLift) ⟨hx.mapping, rfl, fun b hb => ⟨(hx.admitted b hb).1, fun inService => ?_⟩,
          hx.phase, hx.detached, hx.waiting⟩
        exact absurd unserved (Lane.servedLift_of_derived inService)
      · next reason _ =>
        have ready : ((x.cancel env).serving x.derivedLift).Ready :=
          ⟨by simpa [Lane.serving] using hx.mapping, (Lane.cancel_derivedLift x env).symm, by simp [Lane.serving], by simp [Lane.serving],
            by simpa [Lane.serving] using hx.detached, by simpa [Lane.serving] using hx.waiting⟩
        dsimp only
        split
        · next same =>
          exact ⟨ready.mapping, ready.served, same.symm, by simp, by simp, ready.detached, ready.waiting⟩
        · exact ready.rederived

/-- A change that touches only the mapping and the in-operation a lane holds. -/
theorem Lane.Core.moved (hx : x.Core) (mapping : y.secondaryLift ≠ some y.primaryLift)
    (h : y.view = { x.view with
      primaryLift := y.view.primaryLift, secondaryLift := y.view.secondaryLift, liftInOperation := y.view.liftInOperation }) : y.Moved := by
  have derived : y.derived = x.derived := by
    simp only [Lane.view, LaneView.mk.injEq] at h
    simp [Lane.derived, h]
  simp only [Lane.view, LaneView.mk.injEq, true_and] at h
  obtain ⟨present, key, -, actuation, stuck, served, -, effective, held, inFlight, taps⟩ := h
  constructor
  case mapping => exact mapping
  case state => rw [derived, effective]; exact hx.state
  case admitted => rw [held, effective, served]; exact hx.admitted
  case phase => rw [held]; exact hx.phase
  case detached => rw [present, actuation, stuck, key]; exact hx.detached
  case waiting => rw [taps, inFlight]; exact hx.waiting

/-! ### From the law to the core and back -/

theorem Lane.Law.core (hx : x.Law) : x.Core :=
  ⟨hx.mapping, hx.served, hx.state, hx.admitted, hx.phase, hx.detached, hx.waiting⟩

/-- At the end of an event the turnstile follows (R56 to R58). -/
theorem Lane.Core.settled (hx : x.Core) : x.settle.Law where
  mapping := hx.mapping
  served := hx.served
  state := hx.state
  admitted := hx.admitted
  phase := hx.phase
  detached := hx.detached
  waiting := hx.waiting
  unlock := by
    show x.wantsUnlock = true ↔ _
    simp [Lane.wantsUnlock, Lane.settle, Option.any_eq_true]
  drive := by
    show x.driveWindowAfter.isSome = true → x.wantsUnlock = true ∧ x.latchReleased = false
    unfold Lane.driveWindowAfter
    split
    · simp
    · next runs => simpa using fun _ => runs
  watch := by
    show x.releaseWatchAfter.isSome = true ↔ x.wantsUnlock = false ∧ x.presence.debounced = true ∧ x.stuckOpen = false ∧ x.latchReleased = true
    unfold Lane.releaseWatchAfter
    split
    · next runs => simpa [Lane.watched, and_assoc] using runs
    · next stopped => simpa [Lane.watched, and_assoc] using stopped

theorem Lane.Law.of_aside (hx : x.Law) (h : x.Aside y) : y.Law := by
  obtain ⟨mapping, served, state, admitted, phase, detached, waiting⟩ := hx.core.of_view h.view
  have view := h.view
  simp only [Lane.view, LaneView.mk.injEq] at view
  obtain ⟨present, -, -, -, stuck, -, -, -, -, -, effective, held, -, -⟩ := view
  refine ⟨mapping, served, state, admitted, phase, ?_, ?_, ?_, detached, waiting⟩
  · rw [h.unlock, held, effective]; exact hx.unlock
  · rw [h.drive, h.unlock, h.latch]; exact hx.drive
  · rw [h.watch, h.unlock, h.latch, present, stuck]; exact hx.watch

/-! ### Each event -/

/-- A DETACHED lane drives nothing (R47). -/
theorem Lane.Law.present_of_unlock (hx : x.Law) (driven : x.unlock = true) : x.presence.debounced = true := by
  cases present : x.presence.debounced with
  | true => rfl
  | false =>
    have detached : x.effective = .detached := hx.state.trans (Lane.derived_detached present)
    rcases hx.unlock.1 driven with ⟨a, held, -⟩ | free
    · exact absurd ((hx.admitted a held).1.symm.trans detached) (by decide)
    · simp [detached] at free

theorem Lane.Core.attached (hx : x.Core) {p : Debounce Bool} (present : p.debounced = true) :
    (Lane.rederive env { x with presence := p }).Core :=
  (hx.ready (y := { x with presence := p }) rfl (by simp [present]) hx.waiting).rederived

theorem Lane.Core.detach (hx : x.Core) (p : Debounce Bool) : (Lane.detach env l { x with presence := p }).Core := by
  refine Lane.Core.of_view (Lane.Ready.rederived ?_) (Lane.raise_view _)
  exact hx.ready rfl (fun _ => ⟨rfl, rfl, rfl⟩) nofun

/-- A fault latch is set, on a lane that is PRESENT (R59). -/
theorem Lane.Core.latched (hx : x.Core) (h : y.view = { x.view with actuationFail := y.view.actuationFail, stuckOpen := y.view.stuckOpen })
    (present : x.presence.debounced = true) : (Lane.latched env l y).Core := by
  have same : y.view.present = true := by rw [h]; exact present
  have taps : y.waitingTap = x.waitingTap := congrArg LaneView.waitingTap h
  refine Lane.Core.of_view (Lane.Ready.rederived (hx.ready (y := y) ?_ ?_ ?_)) (Lane.raise_view _)
  · rw [h]
  · exact fun absent => absurd (same.symm.trans absent) (by simp)
  · exact fun waits => hx.waiting (taps ▸ waits)

theorem Lane.Core.denied (hx : x.Core) (reason : DenyReason) : (x.deny reason).Core := hx.of_view (Lane.deny_view reason)

theorem Lane.Core.takeTap (hx : x.Core) (uid : Uid) : (x.takeTap uid).Core := by
  unfold Lane.takeTap
  split
  · exact hx
  · split
    · next free =>
      exact hx.carry (admission := none) (flying := true) (tap := x.waitingTap) (by rw [Lane.handRowOp_view, ← free]; rfl) (by simp) (by simp)
        fun _ => rfl
    · split
      · exact hx
      · exact hx.denied _
  all_goals exact hx.denied _

theorem Lane.Core.tapArrives (hx : x.Core) (uid : Uid) : (x.tapArrives uid).Core := by
  unfold Lane.tapArrives
  split
  · next flying => exact hx.carry (tap := some uid) (flying := x.validationInFlight) rfl hx.admitted hx.phase fun _ => flying
  · exact hx.takeTap uid

theorem Lane.Core.takeEmptied (hx : x.Core) : x.takeEmptied.Core := by
  unfold Lane.takeEmptied
  split
  · exact hx
  · next uid rest _ =>
    dsimp only
    split
    · next waits =>
      rw [Bool.and_eq_true] at waits
      exact hx.carry (tap := some (x.waitingTap.getD uid)) (flying := x.validationInFlight) rfl hx.admitted hx.phase fun _ => waits.1
    · exact Lane.Core.takeTap (x := { x with emptiedTaps := rest }) (hx.of_view rfl) uid

theorem Lane.Core.turnKey (hx : x.Core) (present : x.presence.debounced = true) (position : KeyPosition) : (x.turnKey env position).Core := by
  unfold Lane.turnKey
  split
  · exact hx
  · exact Lane.Ready.rederived (hx.ready rfl (by simp [present]) hx.waiting)

theorem Lane.Core.setMode (hx : x.Core) (mode : ConfiguredMode) : (x.setMode env mode).Core := by
  unfold Lane.setMode
  split
  · exact hx
  · exact Lane.Ready.rederived (hx.ready rfl hx.detached hx.waiting)

theorem Lane.Core.clearFaults (hx : x.Core) : (x.clearFaults env).Core := by
  unfold Lane.clearFaults
  split
  · refine Lane.Ready.rederived (hx.ready rfl (fun absent => ?_) hx.waiting)
    obtain ⟨-, stuck, key⟩ := hx.detached absent
    exact ⟨rfl, by simp [stuck], key⟩
  · exact hx

theorem Lane.Core.remap (hx : x.Core) {primary : LiftNo} {secondary : Option LiftNo} (distinct : secondary ≠ some primary) :
    (x.remap env primary secondary).Core :=
  Lane.Moved.rederivedLift (hx.moved (y := { x with primaryLift := primary, secondaryLift := secondary }) distinct rfl) _

/-- A lift the lane is not mapped to does not count for its served lift (R73). -/
theorem Lane.derivedLift_set_unmapped {i : LiftNo} (inOperation : Bool) (unmapped : ¬ (x.primaryLift = i ∨ x.secondaryLift = some i)) :
    ({ x with liftInOperation := x.liftInOperation.set i inOperation } : Lane).derivedLift = x.derivedLift := by
  have other (j : LiftNo) (h : j ≠ i) : (x.liftInOperation.set i inOperation)[j] = x.liftInOperation[j] :=
    Vector.getElem_set_ne _ _ fun same => h (Fin.ext same.symm)
  have primary := other x.primaryLift fun h => unmapped (.inl h)
  unfold Lane.derivedLift
  dsimp only
  rw [primary]
  cases secondary : x.secondaryLift with
  | none => rfl
  | some j =>
    dsimp only
    rw [other j fun h => unmapped (.inr (secondary.trans (by rw [h])))]

theorem Lane.Core.takeChange (hx : x.Core) (i : LiftNo) (inOperation : Bool) : (x.takeChange env i inOperation).Core := by
  unfold Lane.takeChange
  dsimp only
  split
  · refine Lane.Moved.rederivedLift ?_ _
    exact hx.moved hx.mapping rfl
  · next unmapped =>
    exact ⟨hx.mapping, hx.served.trans (Lane.derivedLift_set_unmapped inOperation unmapped).symm, hx.state, hx.admitted, hx.phase,
      hx.detached, hx.waiting⟩

/-- The admission goes on in another phase, its deadline and hold start with it. -/
theorem Lane.Core.continued (hx : x.Core) {a b : Admission} (held : x.admission = some a) (lift : b.lift = a.lift)
    (h : y.view = { x.view with admission := some b })
    (phase : (b.deadline.isSome = true ↔ b.phase.isSome = true) ∧ (b.holdStart.isSome = true ↔ b.phase = some .hold)) : y.Core := by
  refine hx.carry h ?_ ?_ hx.waiting
  · rintro _ ⟨⟩
    rw [lift]
    exact hx.admitted a held
  · rintro _ ⟨⟩
    exact phase

theorem Lane.Core.takePlace (hx : x.Core) (i : LiftNo) (n : RequestNo) : (x.takePlace env i n).Core := by
  unfold Lane.takePlace
  split
  · next a held =>
    split
    · exact hx.continued (b := a.unlocked env.now (1000 * x.passageWindow)) held rfl rfl (by simp [Admission.unlocked])
    · exact hx.of_view (Lane.tell_view ..)
  · exact hx.of_view (Lane.tell_view ..)

theorem Lane.Core.takeHold (hx : x.Core) (i : LiftNo) (n : RequestNo) : (x.takeHold env i n).Core := by
  unfold Lane.takeHold
  split
  · next a held =>
    split
    · exact hx.continued (b := a.held env.now (1000 * x.holdTimeout)) held rfl rfl (by simp [Admission.held])
    · exact hx.of_view (Lane.tell_view ..)
  · exact hx.of_view (Lane.tell_view ..)

theorem Lane.Core.takeRefusal (hx : x.Core) (i : LiftNo) (n : RequestNo) : (x.takeRefusal env i n).Core := by
  unfold Lane.takeRefusal
  repeat' split
  · exact hx.cancelled.of_view (Lane.show_view ..)
  all_goals exact hx

theorem Lane.Core.windowExpires (hx : x.Core) (a : Admission) : (x.windowExpires env a).Core := by
  unfold Lane.windowExpires
  dsimp only
  split
  all_goals exact hx.ended (by simp)

theorem Lane.Core.holdExpires (hx : x.Core) (a : Admission) : (x.holdExpires env a).Core := hx.ended (by simp [Lane.holdExpires])

theorem Lane.Core.takeCancellation (hx : x.Core) (uid : Uid) : (x.takeCancellation env uid).Core := by
  unfold Lane.takeCancellation
  repeat' split
  · exact hx.cancelled.of_view (Lane.show_view ..)
  all_goals exact hx

theorem Lane.Core.headPasses (hx : x.Core) {a : Admission} (held : x.admission = some a) : (x.headPasses env a).Core := by
  unfold Lane.headPasses
  dsimp only
  split
  · refine hx.continued (b := ?_) held ?lift ?view ?phase
    case view => rw [Lane.requestPlace_view, Lane.handRowOp_view, Lane.tell_view]
    case lift => rfl
    case phase => simp
  · exact hx.ended (by simp)

theorem Lane.Core.rotates (hx : x.Core) : (x.rotates env l).Core := by
  unfold Lane.rotates
  split
  · exact hx
  · split
    · next a held =>
      split
      · exact hx.headPasses held
      · split
        · exact hx.of_view Lane.freePassage_view
        · exact hx.of_view Lane.intrusion_view
    · split
      · exact hx.of_view Lane.freePassage_view
      · exact hx.of_view Lane.intrusion_view

/-- Every event at a lane leaves the core of its law. -/
theorem Lane.Event.core (hx : x.Law) (h : x.Event env l z) : z.Core := by
  cases h with
  | attached p present => exact hx.core.attached present
  | detached p absent => exact hx.core.detach p
  | latchSense released => exact hx.core.of_view rfl
  | driveExpired driven => exact hx.core.latched rfl (hx.present_of_unlock driven)
  | watchExpired watched =>
    simp only [Lane.watched, Bool.and_eq_true] at watched
    exact hx.core.latched rfl watched.1.1.2
  | tapped uid => exact hx.core.tapArrives uid
  | emptied => exact hx.core.takeEmptied
  | keyTurned present position => exact hx.core.turnKey present position
  | modeSet mode => exact hx.core.setMode mode
  | faultsCleared => exact hx.core.clearFaults
  | remapped primary secondary distinct => exact hx.core.remap distinct
  | dayOpened => exact Lane.Ready.rederived (hx.core.ready rfl hx.detached hx.waiting)
  | dayClosed => exact Lane.Ready.rederived (hx.core.ready rfl hx.detached hx.waiting)
  | changed i inOperation => exact hx.core.takeChange i inOperation
  | placed i n => exact hx.core.takePlace i n
  | heldOff i n => exact hx.core.takeHold i n
  | refused i n => exact hx.core.takeRefusal i n
  | windowExpired a held => exact hx.core.windowExpires a
  | holdExpired a held => exact hx.core.holdExpires a
  | cancelled uid => exact hx.core.takeCancellation uid
  | rotated p => exact Lane.Core.rotates (x := { x with rotationLine := p }) (hx.core.of_view rfl)

/-- The decision on a tap leaves the core, an admission only where a grant finds the lane IN_SERVICE with its served lift (R92, R99). -/
theorem Lane.Decision.core (hx : x.Core) (h : Lane.Decision env l x z) : z.Core := by
  cases h with
  | denied reason => exact hx.carry (by rw [Lane.decisionTaken_view, Lane.deny_view]; rfl) hx.admitted hx.phase (by simp)
  | ignored => exact hx.carry Lane.decisionTaken_view hx.admitted hx.phase (by simp)
  | granted slot uid lift heads inService served =>
    refine hx.carry (by rw [Lane.grant, Lane.decisionTaken_view, Lane.requestPlace_view, Lane.count_view]) ?_ ?_ (by simp)
    · rintro _ ⟨⟩
      exact ⟨inService, served⟩
    · rintro _ ⟨⟩
      simp

/-- A station reset leaves a lane that holds nothing, its state derived (R66). -/
theorem Lane.Core.stationReset (hx : x.Core) : x.stationReset.Core where
  mapping := hx.mapping
  served := hx.served
  state := rfl
  admitted := by simp [Lane.stationReset]
  phase := by simp [Lane.stationReset]
  detached := hx.detached
  waiting := by simp [Lane.stationReset]

/-- Whatever a command does to a lane, the law of the lane stands after it. -/
theorem Lane.Moves.law {pends : Prop} {stamp : Stamp} (hx : x.Law) (h : Lane.Moves pends stamp l x y) : y.Law := by
  cases h with
  | aside h ops resets => exact hx.of_aside h
  | opTaken h ops resets passage => exact hx.of_aside h
  | resetStarted who h ops resets => exact hx.of_aside h
  | event env read h settles => exact settles ▸ (h.core hx).settled
  | decided who env ops h settles => 
    subst settles
    exact Lane.Core.settled (h.core (by exact hx.core.of_view rfl))
  | reset who waits settles => exact settles ▸ hx.core.stationReset.settled

theorem Lane.aside_tick (x : Lane) : x.Aside x.tick :=
  ⟨rfl, rfl, rfl, Option.isSome_map .., Option.isSome_map .., rfl, id⟩

/-! ### The counters (R49, R64) -/

theorem raiseCount_le {n : Nat} (h : n ≤ 65535) : raiseCount n ≤ 65535 := by
  simp only [raiseCount, bump]
  split <;> omega

@[simp] theorem Lane.rederiveLift_counters (x : Lane) (env : LaneEnv) (cause : ServedCause) : (x.rederiveLift env cause).counters = x.counters := by
  unfold Lane.rederiveLift
  dsimp only
  repeat' split
  all_goals simp

@[simp] theorem Lane.rederiveLift_linkErrors (x : Lane) (env : LaneEnv) (cause : ServedCause) :
    (x.rederiveLift env cause).linkErrors = x.linkErrors := by
  unfold Lane.rederiveLift
  dsimp only
  repeat' split
  all_goals simp

theorem Lane.CounterLaw.of_same (hx : x.CounterLaw) (counters : y.counters = x.counters) (errors : x.linkErrors ≤ 65535 → y.linkErrors ≤ 65535) :
    y.CounterLaw := by
  constructor
  case linkErrors => exact errors hx.linkErrors
  all_goals rw [counters]
  · exact hx.taps
  · exact hx.grants
  · exact hx.denials
  · exact hx.ends
  · exact hx.rotations
  · exact hx.sum

theorem sum_set_add (v : Vector Nat 15) (i : Fin 15) (n : Nat) : (v.set i n).toList.sum + v[i] = v.toList.sum + n := by
  have short : i.val < v.toList.length := by simp
  have before : (v.toList.take i).sum + (v[i] + (v.toList.drop (i + 1)).sum) = v.toList.sum := by
    rw [← List.sum_cons, show v[i] = v.toList[i.val] from by simp, List.getElem_cons_drop short, List.sum_take_add_sum_drop]
  rw [Vector.toList_set, List.sum_set, if_pos short]
  omega

theorem raiseCount_of_lt {n : Nat} (h : raiseCount n < 65535) : raiseCount n = n + 1 := by
  simp only [raiseCount, bump] at *
  split at h
  · next below => rw [if_pos below]
  · omega

/-- A denial is counted twice: with the taps and with those of its reason (R100). -/
theorem Lane.CounterLaw.denied (hx : x.CounterLaw) (reason : DenyReason) : (x.deny reason).CounterLaw := by
  have counters : (x.deny reason).counters = { x.counters with
      taps := raiseCount x.counters.taps,
      denials := x.counters.denials.set reason.index (raiseCount x.counters.denials[reason.index]) } := by
    simp [Lane.deny, Lane.count]
  constructor
  case linkErrors => simpa using hx.linkErrors
  all_goals rw [counters]
  case taps => exact raiseCount_le hx.taps
  case grants => exact hx.grants
  case denials =>
    intro other
    by_cases same : other.index = reason.index
    · simpa [same] using raiseCount_le (hx.denials reason)
    · have kept := Vector.getElem_set_ne (xs := x.counters.denials) (x := raiseCount x.counters.denials[reason.index])
        reason.index.isLt other.index.isLt fun h => same (Fin.ext h.symm)
      exact kept.trans_le (hx.denials other)
  case ends => exact hx.ends
  case rotations => exact hx.rotations
  case sum =>
    intro below
    have raised := raiseCount_of_lt below
    have total := hx.sum (by dsimp only at below; omega)
    have moved := sum_set_add x.counters.denials reason.index (raiseCount x.counters.denials[reason.index])
    have others := sum_set_add x.counters.denials reason.index 0
    have once : raiseCount x.counters.denials[reason.index] = x.counters.denials[reason.index] + 1 := by
      refine if_pos ?_
      dsimp only at below
      omega
    dsimp only at below ⊢
    omega

/-- A grant is counted with the taps and with the grants (R99). -/
theorem Lane.CounterLaw.granted (hx : x.CounterLaw) (lift : LiftNo) (slot : Nat) (uid : Uid) (heads : Nat) :
    (x.grant env l lift slot uid heads).CounterLaw := by
  have counters : (x.grant env l lift slot uid heads).counters =
      { x.counters with taps := raiseCount x.counters.taps, grants := raiseCount x.counters.grants } := by
    simp [Lane.grant, Lane.count]
  constructor
  case linkErrors => simpa [Lane.grant] using hx.linkErrors
  all_goals rw [counters]
  case taps => exact raiseCount_le hx.taps
  case grants => exact raiseCount_le hx.grants
  case denials => exact hx.denials
  case ends => exact hx.ends
  case rotations => exact hx.rotations
  case sum =>
    intro below
    have raised := raiseCount_of_lt below
    dsimp only at below ⊢
    have total := hx.sum (by omega)
    have once : raiseCount x.counters.grants = x.counters.grants + 1 := if_pos (by omega)
    omega

/-- A count of how admissions or rotations end leaves taps, grants and denials alone (R64). -/
theorem Lane.CounterLaw.tallied (hx : x.CounterLaw) {balks partials holdExpiries intrusions freePassages : Nat}
    (ends : balks ≤ 65535 ∧ partials ≤ 65535 ∧ holdExpiries ≤ 65535) (rotations : intrusions ≤ 65535 ∧ freePassages ≤ 65535)
    (counters : y.counters = { x.counters with
      balks := balks, partials := partials, holdExpiries := holdExpiries, intrusions := intrusions, freePassages := freePassages })
    (errors : y.linkErrors = x.linkErrors) : y.CounterLaw := by
  constructor
  case linkErrors => rw [errors]; exact hx.linkErrors
  all_goals rw [counters]
  · exact hx.taps
  · exact hx.grants
  · exact hx.denials
  · exact ends
  · exact rotations
  · exact hx.sum

theorem Lane.CounterLaw.takeTap (hx : x.CounterLaw) (uid : Uid) : (x.takeTap uid).CounterLaw := by
  unfold Lane.takeTap
  split
  · exact hx
  · split
    · exact hx.of_same (by simp) (by simp)
    · split
      · exact hx
      · exact hx.denied _
  all_goals exact hx.denied _

theorem Lane.CounterLaw.takeEmptied (hx : x.CounterLaw) : x.takeEmptied.CounterLaw := by
  unfold Lane.takeEmptied
  split
  · exact hx
  · next uid rest _ =>
    dsimp only
    split
    · exact hx.of_same rfl id
    · exact Lane.CounterLaw.takeTap (x := { x with emptiedTaps := rest }) (hx.of_same rfl id) uid

theorem Lane.CounterLaw.windowExpires (hx : x.CounterLaw) (a : Admission) : (x.windowExpires env a).CounterLaw := by
  obtain ⟨balks, partials, holds⟩ := hx.ends
  unfold Lane.windowExpires
  dsimp only
  split
  · exact hx.tallied ⟨raiseCount_le balks, partials, holds⟩ hx.rotations (by simp [Lane.count]) (by simp)
  · exact hx.tallied ⟨balks, raiseCount_le partials, holds⟩ hx.rotations (by simp [Lane.count]) (by simp)

theorem Lane.CounterLaw.holdExpires (hx : x.CounterLaw) (a : Admission) : (x.holdExpires env a).CounterLaw := by
  obtain ⟨balks, partials, holds⟩ := hx.ends
  exact hx.tallied ⟨balks, partials, raiseCount_le holds⟩ hx.rotations (by simp [Lane.holdExpires, Lane.count]) (by simp [Lane.holdExpires])

theorem Lane.CounterLaw.freePassage (hx : x.CounterLaw) : (x.freePassage env l).CounterLaw := by
  obtain ⟨intrusions, free⟩ := hx.rotations
  exact hx.tallied hx.ends ⟨intrusions, raiseCount_le free⟩ (by simp [Lane.freePassage, Lane.count]) (by simp)

theorem Lane.CounterLaw.intrusion (hx : x.CounterLaw) : (x.intrusion env l).CounterLaw := by
  obtain ⟨intrusions, free⟩ := hx.rotations
  exact hx.tallied hx.ends ⟨raiseCount_le intrusions, free⟩ (by simp [Lane.intrusion, Lane.count]) (by simp)

theorem Lane.headPasses_counters (a : Admission) : (x.headPasses env a).counters = x.counters := by
  unfold Lane.headPasses
  dsimp only
  split <;> simp

theorem Lane.headPasses_linkErrors (a : Admission) : (x.headPasses env a).linkErrors = x.linkErrors := by
  unfold Lane.headPasses
  dsimp only
  split <;> simp

theorem Lane.CounterLaw.rotates (hx : x.CounterLaw) : (x.rotates env l).CounterLaw := by
  unfold Lane.rotates
  split
  · exact hx
  · split
    · split
      · exact hx.of_same (Lane.headPasses_counters _) (Lane.headPasses_linkErrors _).trans_le
      · split
        · exact hx.freePassage
        · exact hx.intrusion
    · split
      · exact hx.freePassage
      · exact hx.intrusion

/-- Every event at a lane keeps its counters in range. -/
theorem Lane.Event.counterLaw (hx : x.CounterLaw) (h : x.Event env l z) : z.CounterLaw := by
  cases h with
  | attached p present => exact hx.of_same (by simp) (by simp)
  | detached p absent => exact hx.of_same (by simp [Lane.detach]) (by simp [Lane.detach])
  | latchSense released => exact hx.of_same rfl id
  | driveExpired driven => exact hx.of_same (by simp [Lane.latched]) (by simp [Lane.latched])
  | watchExpired watched => exact hx.of_same (by simp [Lane.latched]) (by simp [Lane.latched])
  | tapped uid =>
    unfold Lane.tapArrives
    split
    · exact hx.of_same rfl id
    · exact hx.takeTap uid
  | emptied => exact hx.takeEmptied
  | keyTurned present position => unfold Lane.turnKey; split <;> exact hx.of_same (by simp) (by simp)
  | modeSet mode => unfold Lane.setMode; split <;> exact hx.of_same (by simp) (by simp)
  | faultsCleared => unfold Lane.clearFaults; split <;> exact hx.of_same (by simp) (by simp)
  | remapped primary secondary distinct => exact hx.of_same (by simp [Lane.remap]) (by simp [Lane.remap])
  | dayOpened =>
    exact Lane.CounterLaw.of_same (x := { x with counters := LaneCounters.zero, linkErrors := 0 }) (.of_zero rfl rfl) (by simp)
      (by simpa using hx.linkErrors)
  | dayClosed => exact hx.of_same (by simp) (by simp)
  | changed i inOperation =>
    unfold Lane.takeChange
    dsimp only
    split <;> exact hx.of_same (by simp) (by simp)
  | placed i n =>
    unfold Lane.takePlace
    repeat' split
    all_goals exact hx.of_same (by simp [Lane.unlockFor]) (by simp [Lane.unlockFor])
  | heldOff i n =>
    unfold Lane.takeHold
    repeat' split
    all_goals exact hx.of_same (by simp [Lane.holdFor]) (by simp [Lane.holdFor])
  | refused i n =>
    unfold Lane.takeRefusal
    repeat' split
    all_goals exact hx.of_same (by simp) (by simp)
  | windowExpired a held => exact hx.windowExpires a
  | holdExpired a held => exact hx.holdExpires a
  | cancelled uid =>
    unfold Lane.takeCancellation
    repeat' split
    all_goals exact hx.of_same (by simp) (by simp)
  | rotated p => exact Lane.CounterLaw.rotates (x := { x with rotationLine := p }) (hx.of_same rfl id)

theorem Lane.Decision.counterLaw (hx : x.CounterLaw) (h : Lane.Decision env l x z) : z.CounterLaw := by
  cases h with
  | denied reason => exact (hx.denied reason).of_same rfl id
  | ignored => exact hx.of_same rfl id
  | granted slot uid lift heads inService served => exact hx.granted lift slot uid heads

theorem Lane.CounterLaw.settled (hx : x.CounterLaw) : x.settle.CounterLaw := hx.of_same rfl id

/-- Whatever a command does to a lane, its counters stay in range. -/
theorem Lane.Moves.counterLaw {pends : Prop} {stamp : Stamp} (hx : x.CounterLaw) (h : Lane.Moves pends stamp l x y) : y.CounterLaw := by
  cases h with
  | aside h ops resets => exact hx.of_same h.counters h.errors
  | opTaken h ops resets passage => exact hx.of_same h.counters h.errors
  | resetStarted who h ops resets => exact hx.of_same h.counters h.errors
  | event env read h settles => exact settles ▸ (h.counterLaw hx).settled
  | decided who env ops h settles => exact settles ▸ (h.counterLaw (by exact hx.of_same rfl id)).settled
  | reset who waits settles => exact settles ▸ Lane.CounterLaw.settled (hx.of_same rfl id)

end

/-! ### A step -/

theorem State.tick_lane (s : State) (l : LaneNo) : s.tick.lane l = (s.lane l).tick := Vector.getElem_map ..

theorem State.tick_moves {pends : Prop} (s : State) : s.LanesMove pends s.tick := fun l => by
  rw [State.tick_lane]
  exact .aside (Lane.aside_tick _) rfl rfl

/-- Power-on reset starts every lane afresh (R67). -/
theorem execPowerOnReset_lane {s t : State} (h : execPowerOnReset s = .next t) (l : LaneNo) : t.lane l =
    Lane.powerOn (s.lane l).presence.line (s.lane l).latchReleased (s.lane l).rotationLine.active := by
  cases h
  exact Vector.getElem_map ..

/-- A step starts every lane afresh, or moves each as a command may. -/
theorem step_lanes {s t : State} (h : step s = .next t) :
    (∀ l, ∃ present latch active, t.lane l = Lane.powerOn present latch active) ∨ s.LanesMove True t := by
  rcases step_cases h with rfl | ⟨c, rest, h⟩
  · exact .inr s.tick_moves
  · by_cases on : c = .powerOnReset
    · subst on
      exact .inl fun l => ⟨_, _, _, execPowerOnReset_lane h l⟩
    · have moves := exec_lanes h on fun _ => trivial
      exact .inr fun l => moves l

theorem step_laneLaw {s t : State} (law : s.LaneLaw) (h : step s = .next t) : t.LaneLaw := fun l => by
  rcases step_lanes h with afresh | moves
  · obtain ⟨present, latch, active, eq⟩ := afresh l
    exact eq ▸ Lane.powerOn_law present latch active
  · exact (moves l).law (law l)

theorem step_counterLaw {s t : State} (law : s.CounterLaw) (h : step s = .next t) : t.CounterLaw := fun l => by
  rcases step_lanes h with afresh | moves
  · obtain ⟨present, latch, active, eq⟩ := afresh l
    exact eq ▸ .of_zero rfl rfl
  · exact (moves l).counterLaw (law l)

end Sys2Proof.Machine
end

section
set_option Elab.async false
/-! O14, last part, and O10: the two ends of a grant and the days handed with a passage. What a lane hands the table port is followed in its
ledger (R8, R91, R99, R111, R114, R115). -/
namespace Sys2Proof.Machine

/-! ### The ledger of a lane -/

/-- What a lane has handed the table port, and what entitles it to hand more. -/
structure Ledger where
  ops : List RowOp
  resets : Nat
  held : Option (Nat × Uid)
  flying : Bool

def Lane.ledger (x : Lane) : Ledger :=
  { ops := x.rowOps, resets := x.resetsPending, held := x.admission.map fun a => (a.slot, a.uid), flying := x.validationInFlight }

/-- An operation joins the list, unless the port discards it (R8, R114). -/
def Ledger.hand (k : Ledger) (op : RowOp) : Ledger := if k.resets = 0 then { k with ops := k.ops ++ [op] } else k

def Ledger.claims (k : Ledger) (slot : Nat) (uid : Uid) : Prop := k.held = some (slot, uid) ∨ RowOp.closing slot uid ∈ k.ops

/-- `Lane.listed`, read in the ledger. -/
def Ledger.listed (k : Ledger) (op : RowOp) (after : List RowOp) : Prop :=
  match op with
  | .validate _ => k.held = none ∧ k.flying = true ∧ after = []
  | .closing _ _ => k.held = none ∧ ∀ later ∈ after, ∃ uid, later = .validate uid
  | .passage slot uid _ _ _ => k.claims slot uid

/-- The list stands in the order its operations were handed, and is empty while a station reset is to be taken. -/
structure Ledger.Wf (k : Ledger) : Prop where
  ordered : ∀ (before after : List RowOp) (op : RowOp), k.ops = before ++ op :: after → k.listed op after
  discarded : k.resets ≠ 0 → k.ops = []

/-- `m` follows `k` with the same claims: in order where `k` was, each passage handed since bearing the stamp. -/
structure Ledger.Keeps (stamp : Stamp) (k m : Ledger) : Prop where
  resets : m.resets = k.resets
  claims : k.resets = 0 → ∀ slot uid, m.claims slot uid ↔ k.claims slot uid
  wf : k.Wf → m.Wf
  stamps : ∀ (slot : Nat) (uid : Uid) (head : Nat) (lift : LiftNo) (given : Stamp), RowOp.passage slot uid head lift given ∈ m.ops →
    RowOp.passage slot uid head lift given ∈ k.ops ∨ given = stamp

section
variable {stamp : Stamp} {k m n : Ledger} {x y z : Lane} {env : LaneEnv} {l : LaneNo}

theorem Lane.claims_iff (slot : Nat) (uid : Uid) : x.claims slot uid ↔ x.ledger.claims slot uid := by
  simp [Lane.claims, Ledger.claims, Lane.ledger]

theorem Lane.listed_iff (op : RowOp) (after : List RowOp) : x.listed op after ↔ x.ledger.listed op after := by
  cases op with
  | passage slot uid head lift stamp => exact Lane.claims_iff slot uid
  | validate uid => simp [Lane.listed, Ledger.listed, Lane.ledger]
  | closing slot uid => simp [Lane.listed, Ledger.listed, Lane.ledger]

/-! ### What keeps a ledger -/

theorem Ledger.Wf.of_discarded (ops : k.ops = []) : k.Wf := ⟨fun before after op h => by simp [ops] at h, fun _ => ops⟩

theorem Ledger.Keeps.refl (stamp : Stamp) (k : Ledger) : k.Keeps stamp k := ⟨rfl, fun _ _ _ => .rfl, id, fun _ _ _ _ _ => .inl⟩

theorem Ledger.Keeps.of_eq (h : m = k) : k.Keeps stamp m := h ▸ .refl stamp k

theorem Ledger.Keeps.trans (h : k.Keeps stamp m) (g : m.Keeps stamp n) : k.Keeps stamp n where
  resets := g.resets.trans h.resets
  claims none slot uid := (g.claims (h.resets.trans none) slot uid).trans (h.claims none slot uid)
  wf := g.wf ∘ h.wf
  stamps _ _ _ _ _ mem := (g.stamps _ _ _ _ _ mem).elim (h.stamps _ _ _ _ _) .inr

/-- The list of a ledger in order ends with an operation more. -/
theorem Ledger.Wf.append (wf : k.Wf) (none : k.resets = 0) {new : RowOp} (resets : m.resets = k.resets) (ops : m.ops = k.ops ++ [new])
    (last : m.listed new []) (others : ∀ op after, k.listed op after → m.listed op (after ++ [new])) : m.Wf where
  ordered before after op h := by
    rw [ops] at h
    rcases List.eq_nil_or_concat after with rfl | ⟨front, final, rfl⟩
    · obtain ⟨-, same⟩ := List.append_inj' h rfl
      cases same
      exact last
    · rw [List.concat_eq_append] at h ⊢
      rw [← List.cons_append, ← List.append_assoc] at h
      obtain ⟨front_eq, same⟩ := List.append_inj' h rfl
      cases same
      exact others op front (wf.ordered before front op front_eq)
  discarded h := absurd (resets.trans none) h

/-- A tap is handed for validation by a lane that holds nothing and has none in flight (R91). -/
theorem Ledger.Keeps.asked (uid : Uid) (free : k.held = none) (idle : k.flying = false) :
    k.Keeps stamp (({ k with flying := true } : Ledger).hand (.validate uid)) := by
  unfold Ledger.hand
  dsimp only
  split
  case isFalse waits => exact ⟨rfl, fun none => absurd none waits, fun wf => .of_discarded (wf.discarded waits), fun _ _ _ _ _ => .inl⟩
  case isTrue none =>
    refine ⟨rfl, fun _ slot uid => by simp [Ledger.claims], fun wf => wf.append none rfl rfl ⟨free, rfl, rfl⟩ fun op after h => ?_,
      fun slot uid head lift given mem => .inl (by simpa using mem)⟩
    cases op with
    | validate uid => exact absurd (idle.symm.trans h.2.1) (by decide)
    | closing slot uid =>
      refine ⟨h.1, fun later mem => ?_⟩
      rcases List.mem_append.1 mem with old | new
      · exact h.2 later old
      · exact ⟨_, List.mem_singleton.1 new⟩
    | passage slot uid head lift stamp => exact h.imp id (List.mem_append_left _)

/-- An admission ends, and its closing row operation is handed (R115). -/
theorem Ledger.Keeps.closed {slot : Nat} {uid : Uid} (held : k.held = some (slot, uid)) :
    k.Keeps stamp (({ k with held := none } : Ledger).hand (.closing slot uid)) := by
  unfold Ledger.hand
  dsimp only
  split
  case isFalse waits => exact ⟨rfl, fun none => absurd none waits, fun wf => .of_discarded (wf.discarded waits), fun _ _ _ _ _ => .inl⟩
  case isTrue none =>
    have claims (s : Nat) (u : Uid) : Ledger.claims { k with ops := k.ops ++ [.closing slot uid], held := Option.none } s u ↔ k.claims s u := by
      simp [Ledger.claims, held, or_comm, eq_comm]
    refine ⟨rfl, fun _ => claims, fun wf => wf.append none rfl rfl ⟨rfl, by simp⟩ fun op after h => ?_,
      fun slot uid head lift given mem => .inl (by simpa using mem)⟩
    cases op with
    | validate uid => exact absurd (held.symm.trans h.1) nofun
    | closing slot uid => exact absurd (held.symm.trans h.1) nofun
    | passage slot uid head lift stamp => exact (claims slot uid).2 h

/-- A passage of the row held is handed (R111). -/
theorem Ledger.Keeps.passed {slot : Nat} {uid : Uid} (held : k.held = some (slot, uid)) (head : Nat) (lift : LiftNo) :
    k.Keeps stamp (k.hand (.passage slot uid head lift stamp)) := by
  unfold Ledger.hand
  split
  case isFalse waits => exact .refl stamp k
  case isTrue none =>
    have claims (s : Nat) (u : Uid) :
        Ledger.claims { k with ops := k.ops ++ [.passage slot uid head lift stamp] } s u ↔ k.claims s u := by
      simp [Ledger.claims]
    refine ⟨rfl, fun _ => claims, fun wf => wf.append none rfl rfl ((claims slot uid).2 (.inl held)) fun op after h => ?_,
      fun slot uid head lift given mem => ?_⟩
    · cases op with
      | validate uid => exact absurd (held.symm.trans h.1) nofun
      | closing slot uid => exact absurd (held.symm.trans h.1) nofun
      | passage slot uid head lift stamp => exact (claims slot uid).2 h
    · rcases List.mem_append.1 mem with old | new
      · exact .inl old
      · cases List.mem_singleton.1 new
        exact .inr rfl

/-- The table port performs the first operation, a passage (R112, R113). -/
theorem Ledger.Keeps.performed {slot head : Nat} {uid : Uid} {lift : LiftNo} {given : Stamp}
    (ops : k.ops = .passage slot uid head lift given :: m.ops) (resets : m.resets = k.resets) (held : m.held = k.held)
    (flying : m.flying = k.flying) : k.Keeps stamp m := by
  have claims (s : Nat) (u : Uid) : m.claims s u ↔ k.claims s u := by simp [Ledger.claims, held, ops]
  refine ⟨resets, fun _ => claims, fun wf => ⟨fun before after op h => ?_, fun waits => ?_⟩, fun s u hd lf g mem => .inl (ops ▸ .tail _ mem)⟩
  · have listed := wf.ordered (.passage slot uid head lift given :: before) after op (by rw [ops, h]; rfl)
    cases op with
    | validate uid => exact ⟨held.trans listed.1, flying.trans listed.2.1, listed.2.2⟩
    | closing slot uid => exact ⟨held.trans listed.1, listed.2⟩
    | passage slot uid head lift stamp => exact (claims slot uid).2 listed
  · simpa [ops] using wf.discarded (resets ▸ waits)

/-- The decision on a tap is taken without a grant (R92, R100). -/
theorem Ledger.Keeps.decided {uid : Uid} (ops : k.ops = .validate uid :: m.ops) (resets : m.resets = k.resets) (held : m.held = k.held) :
    k.Keeps stamp m := by
  refine ⟨resets, fun _ s u => by simp [Ledger.claims, held, ops], fun wf => ?_, fun s u hd lf g mem => .inl (ops ▸ .tail _ mem)⟩
  exact .of_discarded (wf.ordered [] m.ops _ ops).2.2

/-! ### The ledger after each part of an event -/

@[simp] theorem Lane.tell_ledger (i : LiftNo) (msg : LaneMessage) : (x.tell env i msg).ledger = x.ledger := by simp [Lane.ledger]

@[simp] theorem Lane.giveUp_ledger (a : Admission) : (x.giveUp env a).ledger = x.ledger := by simp [Lane.ledger]

@[simp] theorem Lane.show_ledger (g : Signal) (r : ShowReason) (heads : Nat) : (x.show g r heads).ledger = x.ledger := rfl

@[simp] theorem Lane.showState_ledger : x.showState.ledger = x.ledger := rfl

@[simp] theorem Lane.raise_ledger (r : Raise) : (x.raise r).ledger = x.ledger := rfl

@[simp] theorem Lane.count_ledger (f : LaneCounters → LaneCounters) : (x.count f).ledger = x.ledger := rfl

@[simp] theorem Lane.deny_ledger (r : DenyReason) : (x.deny r).ledger = x.ledger := by simp [Lane.ledger]

@[simp] theorem Lane.freePassage_ledger : (x.freePassage env l).ledger = x.ledger := by simp [Lane.ledger]

@[simp] theorem Lane.intrusion_ledger : (x.intrusion env l).ledger = x.ledger := by simp [Lane.ledger]

@[simp] theorem Lane.handRowOp_ledger (op : RowOp) : (x.handRowOp op).ledger = x.ledger.hand op := by
  unfold Lane.handRowOp Ledger.hand
  split <;> simp_all [Lane.ledger]

@[simp] theorem Lane.endAdmission_ledger (a : Admission) :
    (x.endAdmission a).ledger = ({ x.ledger with held := none } : Ledger).hand (.closing a.slot a.uid) := Lane.handRowOp_ledger _

@[simp] theorem Lane.requestPlace_ledger (a : Admission) : (x.requestPlace env a).ledger = { x.ledger with held := some (a.slot, a.uid) } := by
  simp [Lane.ledger, Lane.requestPlace]

theorem Lane.ledger_held {a : Admission} (held : x.admission = some a) : x.ledger.held = some (a.slot, a.uid) := by simp [Lane.ledger, held]

theorem Lane.Aside.held_flying (h : x.Aside y) : y.ledger.held = x.ledger.held ∧ y.ledger.flying = x.ledger.flying := by
  have view := h.view
  simp only [Lane.view, LaneView.mk.injEq] at view
  obtain ⟨-, -, -, -, -, -, -, -, -, -, -, held, flying, -⟩ := view
  exact ⟨congrArg (Option.map fun a : Admission => (a.slot, a.uid)) held, flying⟩

theorem Lane.Aside.ledger (h : x.Aside y) (ops : y.rowOps = x.rowOps) (resets : y.resetsPending = x.resetsPending) : y.ledger = x.ledger := by
  obtain ⟨held, flying⟩ := h.held_flying
  rw [show y.ledger = ⟨y.rowOps, y.resetsPending, y.ledger.held, y.ledger.flying⟩ from rfl, ops, resets, held, flying]
  rfl

/-! ### Each event -/

/-- An admission held ends, whatever else the lane hands its lift (R115). -/
theorem Lane.endAdmission_keeps {a : Admission} (held : x.admission = some a) (same : y.ledger = x.ledger) :
    x.ledger.Keeps stamp (y.endAdmission a).ledger := by
  rw [Lane.endAdmission_ledger, same]
  exact .closed (Lane.ledger_held held)

theorem Lane.cancel_keeps : x.ledger.Keeps stamp (x.cancel env).ledger := by
  unfold Lane.cancel
  split
  · exact .refl ..
  · next a held => exact Lane.endAdmission_keeps held (Lane.giveUp_ledger a)

theorem Lane.rederive_keeps : x.ledger.Keeps stamp (x.rederive env).ledger := by
  unfold Lane.rederive
  dsimp only
  split
  · exact .refl ..
  · split
    · exact Lane.cancel_keeps
    · exact .refl ..

/-- A re-derivation after a change of what the ledger does not hold. -/
theorem Lane.rederived_keeps (same : y.ledger = x.ledger) : x.ledger.Keeps stamp (y.rederive env).ledger := same ▸ Lane.rederive_keeps

theorem Lane.rederiveLift_keeps (cause : ServedCause) : x.ledger.Keeps stamp (x.rederiveLift env cause).ledger := by
  unfold Lane.rederiveLift
  dsimp only
  split
  · exact .refl ..
  · split
    · exact Lane.rederived_keeps rfl
    · split
      · exact Lane.rederived_keeps rfl
      · split
        · exact Lane.cancel_keeps (x := x)
        · exact (Lane.cancel_keeps (x := x)).trans (Lane.rederived_keeps rfl)

theorem Lane.takeTap_keeps (uid : Uid) (idle : x.effective = .inService → x.admission = none → x.validationInFlight = false) :
    x.ledger.Keeps stamp (x.takeTap uid).ledger := by
  unfold Lane.takeTap
  split
  · exact .refl ..
  · next inService =>
    split
    · next free =>
      rw [Lane.handRowOp_ledger]
      exact .asked uid (by simp [Lane.ledger, free]) (idle inService free)
    · split
      · exact .refl ..
      · exact .of_eq (Lane.deny_ledger _)
  all_goals exact .of_eq (Lane.deny_ledger _)

theorem Lane.tapArrives_keeps (uid : Uid) : x.ledger.Keeps stamp (x.tapArrives uid).ledger := by
  unfold Lane.tapArrives
  split
  · exact .refl ..
  · next idle => exact Lane.takeTap_keeps uid fun _ _ => by simpa using idle

theorem Lane.takeEmptied_keeps : x.ledger.Keeps stamp x.takeEmptied.ledger := by
  rcases x.takeEmptied_cases with ⟨-, same⟩ | ⟨uid, rest, -, ⟨-, -, -, same⟩ | ⟨other, same⟩⟩ <;> rw [same]
  · exact .refl ..
  · exact .refl ..
  · refine Lane.takeTap_keeps (x := { x with emptiedTaps := rest }) uid fun inService free => ?_
    rcases other with idle | out | busy
    · exact idle
    · exact absurd inService out
    · exact absurd free busy

theorem Lane.headPasses_keeps {a : Admission} (held : x.admission = some a) : x.ledger.Keeps env.stamp (x.headPasses env a).ledger := by
  have handed : x.ledger.Keeps env.stamp (x.ledger.hand (.passage a.slot a.uid (a.headsPassed + 1) a.lift env.stamp)) :=
    .passed (Lane.ledger_held held) ..
  have still : (x.ledger.hand (.passage a.slot a.uid (a.headsPassed + 1) a.lift env.stamp)).held = some (a.slot, a.uid) := by
    unfold Ledger.hand
    split <;> exact Lane.ledger_held held
  unfold Lane.headPasses
  dsimp only
  split
  · rw [Lane.requestPlace_ledger, Lane.handRowOp_ledger, Lane.tell_ledger, ← still]
    exact handed
  · rw [Lane.show_ledger, Lane.endAdmission_ledger, Lane.handRowOp_ledger, Lane.tell_ledger]
    exact handed.trans (.closed still)

theorem Lane.rotates_keeps : x.ledger.Keeps env.stamp (x.rotates env l).ledger := by
  unfold Lane.rotates
  split
  · exact .refl ..
  · split
    · next a held =>
      split
      · exact Lane.headPasses_keeps held
      · split
        · exact .of_eq Lane.freePassage_ledger
        · exact .of_eq Lane.intrusion_ledger
    · split
      · exact .of_eq Lane.freePassage_ledger
      · exact .of_eq Lane.intrusion_ledger

theorem Lane.takePlace_keeps (i : LiftNo) (r : RequestNo) : x.ledger.Keeps stamp (x.takePlace env i r).ledger := by
  unfold Lane.takePlace
  split
  · next a held =>
    split
    · exact .of_eq (by simp [Lane.ledger, Lane.unlockFor, Admission.unlocked, held])
    · exact .of_eq (Lane.tell_ledger ..)
  · exact .of_eq (Lane.tell_ledger ..)

theorem Lane.takeHold_keeps (i : LiftNo) (r : RequestNo) : x.ledger.Keeps stamp (x.takeHold env i r).ledger := by
  unfold Lane.takeHold
  split
  · next a held =>
    split
    · exact .of_eq (by simp [Lane.ledger, Lane.holdFor, Admission.held, held])
    · exact .of_eq (Lane.tell_ledger ..)
  · exact .of_eq (Lane.tell_ledger ..)

theorem Lane.takeRefusal_keeps (i : LiftNo) (r : RequestNo) : x.ledger.Keeps stamp (x.takeRefusal env i r).ledger := by
  unfold Lane.takeRefusal
  repeat' split
  · exact Lane.cancel_keeps (x := x)
  all_goals exact .refl ..

theorem Lane.takeCancellation_keeps (uid : Uid) : x.ledger.Keeps stamp (x.takeCancellation env uid).ledger := by
  unfold Lane.takeCancellation
  repeat' split
  · exact Lane.cancel_keeps (x := x)
  all_goals exact .refl ..

theorem Lane.windowExpires_keeps {a : Admission} (held : x.admission = some a) : x.ledger.Keeps stamp (x.windowExpires env a).ledger := by
  unfold Lane.windowExpires
  dsimp only
  split <;> rw [Lane.show_ledger, Lane.count_ledger] <;> exact Lane.endAdmission_keeps held (Lane.tell_ledger ..)

theorem Lane.holdExpires_keeps {a : Admission} (held : x.admission = some a) : x.ledger.Keeps stamp (x.holdExpires env a).ledger := by
  rw [Lane.holdExpires, Lane.show_ledger, Lane.count_ledger]
  exact Lane.endAdmission_keeps held (Lane.tell_ledger ..)

/-- Every event at a lane keeps its ledger. -/
theorem Lane.Event.keeps (h : x.Event env l z) : x.ledger.Keeps env.stamp z.ledger := by
  cases h with
  | attached p present => exact Lane.rederived_keeps rfl
  | detached p absent => rw [Lane.detach, Lane.raise_ledger]; exact Lane.rederived_keeps rfl
  | latchSense released => exact .refl ..
  | driveExpired driven => rw [Lane.latched, Lane.raise_ledger]; exact Lane.rederived_keeps rfl
  | watchExpired watched => rw [Lane.latched, Lane.raise_ledger]; exact Lane.rederived_keeps rfl
  | tapped uid => exact Lane.tapArrives_keeps uid
  | emptied => exact Lane.takeEmptied_keeps
  | keyTurned present position =>
    unfold Lane.turnKey
    split
    · exact .refl ..
    · exact Lane.rederived_keeps rfl
  | modeSet mode =>
    unfold Lane.setMode
    split
    · exact .refl ..
    · exact Lane.rederived_keeps rfl
  | faultsCleared =>
    unfold Lane.clearFaults
    split
    · exact Lane.rederived_keeps rfl
    · exact .refl ..
  | remapped primary secondary distinct =>
    exact Lane.rederiveLift_keeps (x := { x with primaryLift := primary, secondaryLift := secondary }) _
  | dayOpened => exact Lane.rederived_keeps rfl
  | dayClosed => exact Lane.rederived_keeps rfl
  | changed i inOperation =>
    unfold Lane.takeChange
    dsimp only
    split
    · exact Lane.rederiveLift_keeps (x := { x with liftInOperation := x.liftInOperation.set i inOperation }) _
    · exact .refl ..
  | placed i r => exact Lane.takePlace_keeps i r
  | heldOff i r => exact Lane.takeHold_keeps i r
  | refused i r => exact Lane.takeRefusal_keeps i r
  | windowExpired a held => exact Lane.windowExpires_keeps held
  | holdExpired a held => exact Lane.holdExpires_keeps held
  | cancelled uid => exact Lane.takeCancellation_keeps uid
  | rotated p => exact Lane.rotates_keeps (x := { x with rotationLine := p })

/-! ### The commands that settle no grant -/

theorem Lane.Moves.keeps (h : Lane.Moves False stamp l x y) : x.ledger.Keeps stamp y.ledger := by
  cases h with
  | aside h ops resets => exact .of_eq (h.ledger ops resets)
  | opTaken h ops resets passage =>
    obtain ⟨slot, uid, head, lift, given, rfl⟩ := passage.resolve_right id
    exact .performed ops resets h.held_flying.1 h.held_flying.2
  | resetStarted who h ops resets => exact who.elim
  | event env read h settles => subst read settles; exact h.keeps
  | decided who env ops h settles => exact who.elim
  | reset who waits settles => exact who.elim

end

/-! ### The two ends of a grant -/

/-- A row of this slot and UID names the lane as its pending lane. -/
def State.Names (s : State) (l : LaneNo) (slot : Nat) (uid : Uid) : Prop :=
  ∃ row, slotAt s.table.slots slot = some row ∧ row.uid = uid ∧ row.pendingLane = some l

/-- The lane holds the row, and no station reset stands before it. -/
def Ledger.Owns (k : Ledger) (slot : Nat) (uid : Uid) : Prop := k.resets = 0 ∧ k.claims slot uid

section
variable {s t : State} {l : LaneNo}

theorem State.grantLaw_iff : s.GrantLaw ↔
    (∀ l slot uid, (s.lane l).ledger.Owns slot uid ↔ s.Names l slot uid) ∧ ∀ l, (s.lane l).ledger.Wf := by
  constructor
  · rintro ⟨named, ordered, discarded⟩
    exact ⟨fun l slot uid => (and_congr_right fun _ => (Lane.claims_iff slot uid).symm).trans (named l slot uid),
      fun l => ⟨fun before after op h => (Lane.listed_iff op after).1 (ordered l before after op h), discarded l⟩⟩
  · rintro ⟨named, wf⟩
    exact ⟨fun l slot uid => (and_congr_right fun _ => Lane.claims_iff slot uid).trans (named l slot uid),
      fun l before after op h => (Lane.listed_iff op after).2 ((wf l).ordered before after op h), fun l => (wf l).discarded⟩

theorem Ledger.Keeps.owns {stamp : Stamp} {k m : Ledger} (h : k.Keeps stamp m) (slot : Nat) (uid : Uid) : m.Owns slot uid ↔ k.Owns slot uid := by
  unfold Ledger.Owns
  rw [h.resets]
  exact and_congr_right fun none => h.claims none slot uid

/-- Every ledger is kept, and the rows name the lanes they named. -/
theorem State.GrantLaw.keep {stamp : Stamp} (law : s.GrantLaw) (lanes : ∀ l, (s.lane l).ledger.Keeps stamp (t.lane l).ledger)
    (rows : ∀ l slot uid, t.Names l slot uid ↔ s.Names l slot uid) : t.GrantLaw := by
  obtain ⟨named, wf⟩ := State.grantLaw_iff.1 law
  exact State.grantLaw_iff.2
    ⟨fun l slot uid => ((lanes l).owns slot uid).trans ((named l slot uid).trans (rows l slot uid).symm), fun l => (lanes l).wf (wf l)⟩

/-- One lane's ledger and the rows that name it change together. -/
theorem State.GrantLaw.at_lane (law : s.GrantLaw) (others : ∀ m, m ≠ l → t.lane m = s.lane m) (wf : (t.lane l).ledger.Wf)
    (own : ∀ slot uid, (t.lane l).ledger.Owns slot uid ↔ t.Names l slot uid)
    (rows : ∀ m, m ≠ l → ∀ slot uid, t.Names m slot uid ↔ s.Names m slot uid) : t.GrantLaw := by
  obtain ⟨named, wfs⟩ := State.grantLaw_iff.1 law
  refine State.grantLaw_iff.2 ⟨fun m slot uid => ?_, fun m => ?_⟩ <;> by_cases same : m = l
  · exact same ▸ own slot uid
  · rw [others m same, rows m same slot uid]
    exact named m slot uid
  · exact same ▸ wf
  · exact others m same ▸ wfs m

/-! ### The rows, where no grant is settled -/

theorem State.Names.congr (slots : t.table.slots = s.table.slots) (slot : Nat) (uid : Uid) : t.Names l slot uid ↔ s.Names l slot uid := by
  simp [State.Names, slots]

theorem State.Rewrites.pendingLane_eq {old row : PassRow} (h : s.Rewrites False old row) : row.pendingLane = old.pendingLane := by
  cases h with
  | pending who lane => exact who.elim
  | passed handed =>
    simp only [commitRow, commitDay]
    repeat' split
    all_goals rfl
  | retired c held => exact held ▸ rfl
  | _ => rfl

/-- Only the commands that settle grants make a row name another lane than before. -/
theorem State.RowsChange.names (table : s.TableLaw) (h : s.RowsChange False t) (l : LaneNo) (slot : Nat) (uid : Uid) :
    t.Names l slot uid ↔ s.Names l slot uid := by
  cases h with
  | kept rows => exact State.Names.congr rows.1 ..
  | cleared starting slots used products => exact State.Names.congr (slots.trans (table.clearing starting).symm) ..
  | released who rows => exact who.elim
  | @rewritten k old row held writes rows =>
    have slots : t.table.slots = putSlot s.table.slots k row := by rw [rows.1, State.moveCount_table, State.writeRow_slots]
    unfold State.Names
    rw [slots, slotAt_putSlot]
    split
    · next same => simp [same, held, writes.uid_eq, writes.pendingLane_eq]
    · exact .rfl
  | @inserted k f ready accepted fresh free rows =>
    unfold State.Names
    rw [rows.1, State.insertRow_slots, slotAt_putSlot]
    split
    · next same => simp [same, (freeSlotFor_some free).1, PassForm.newRow]
    · exact .rfl
  | @deleted k row held idle rows =>
    unfold State.Names
    rw [rows.1, State.deleteRow_slots, slotAt_freeSlot table.canonical]
    split
    · next same => simp [same, held, idle]
    · exact .rfl
  | productWritten legal kindKept grown open' rows => exact State.Names.congr rows.1 ..
  | productCleared unused open' rows => exact State.Names.congr rows.1 ..

theorem exec_grantLaw_unsettled {c : Instr} (table : s.TableLaw) (law : s.GrantLaw) (h : exec c s = .next t) (on : c ≠ .powerOnReset)
    (other : settlesGrants c = false) : t.GrantLaw := by
  have who : settlesGrants c = true → False := by simp [other]
  exact law.keep (fun l => (exec_lanes h on who l).keeps) ((exec_rows h on who).names table)

/-! ### The commands that settle a grant -/

/-- A station reset: no row names a lane, and every lane has the reset to take (R8). -/
theorem execStationReset_grantLaw (law : s.GrantLaw) (h : execStationReset s = .next t) : t.GrantLaw := by
  unfold execStationReset at h
  split at h <;> cases h
  · exact law
  · refine State.grantLaw_iff.2 ⟨fun l slot uid => iff_of_false (fun owns => ?_) ?_, fun l => ?_⟩
    · simp [Ledger.Owns, State.startReset_lane, Lane.ledger] at owns
    · rintro ⟨row, held, -, named⟩
      have released := (slotAt_map s.table.slots (fun row => { row with pendingLane := none }) slot).symm.trans held
      obtain ⟨old, -, rfl⟩ := Option.map_eq_some_iff.1 released
      cases named
    · exact .of_discarded (by simp [State.startReset_lane, Lane.ledger])

/-- A lane that has still to take a station reset is named by no row, and holds nothing after it (R66). -/
theorem execLaneStationReset_grantLaw (law : s.GrantLaw) (h : execLaneStationReset l s = .next t) : t.GrantLaw := by
  unfold execLaneStationReset at h
  split at h <;> cases h
  · exact law
  · next waits =>
    have emptied : ((s.laneEvent l fun _ x => x.stationReset).lane l).ledger.ops = [] := by rw [State.laneEvent_lane_same]; rfl
    have ended : ((s.laneEvent l fun _ x => x.stationReset).lane l).ledger.held = none := by rw [State.laneEvent_lane_same]; rfl
    refine law.at_lane (fun m other => State.laneEvent_lane_other _ _ other) (.of_discarded emptied) (fun slot uid => iff_of_false ?_ ?_)
      fun m _ slot uid => State.Names.congr rfl slot uid
    · rintro ⟨-, held | closing⟩
      · exact absurd (ended.symm.trans held) nofun
      · exact absurd (emptied ▸ closing) List.not_mem_nil
    · intro named
      exact waits (((State.grantLaw_iff.1 law).1 l slot uid).2 named).1

/-- A validation at the head of the list stands alone in it, in flight and beside no admission (R91). -/
theorem Ledger.Wf.validate {k : Ledger} (wf : k.Wf) {uid : Uid} {rest : List RowOp} (ops : k.ops = .validate uid :: rest) :
    k.held = none ∧ rest = [] := by
  obtain ⟨free, -, alone⟩ := wf.ordered [] rest _ ops
  exact ⟨free, alone⟩

/-- Before a validation is decided no row names the lane. -/
theorem State.GrantLaw.validating (law : s.GrantLaw) {uid : Uid} {rest : List RowOp} (ops : (s.lane l).rowOps = .validate uid :: rest)
    (slot : Nat) (other : Uid) : ¬ s.Names l slot other := by
  obtain ⟨named, wf⟩ := State.grantLaw_iff.1 law
  rw [← named]
  rintro ⟨-, held | closing⟩
  · exact absurd ((wf l).validate ops).1 (by simp [held])
  · obtain rfl := ((wf l).validate ops).2
    simp [Lane.ledger, ops] at closing

/-- The lane performs its first row operation. -/
theorem State.dropRowOp_lane_same {op : RowOp} {rest : List RowOp} (ops : (s.lane l).rowOps = op :: rest) :
    ((s.granted (.lane l)).dropRowOp l).lane l = { s.lane l with rowOps := rest } := by
  rw [State.dropRowOp, State.setLane_lane_same]
  simp [ops]

theorem State.dropRowOp_lane_other (s : State) {m : LaneNo} (other : m ≠ l) : ((s.granted (.lane l)).dropRowOp l).lane m = s.lane m :=
  State.setLane_lane_other _ _ other

/-- A tap decided without a grant leaves rows and claims as they were. -/
theorem State.GrantLaw.ungranted (law : s.GrantLaw) {uid : Uid} {rest : List RowOp} (ops : (s.lane l).rowOps = .validate uid :: rest)
    {f : LaneEnv → Lane → Lane} (decided : ∀ env x, (f env x).ledger = { x.ledger with flying := false }) :
    (((s.granted (.lane l)).dropRowOp l).laneEvent l f).GrantLaw := by
  have ledger : ((((s.granted (.lane l)).dropRowOp l).laneEvent l f).lane l).ledger =
      { (s.lane l).ledger with ops := rest, flying := false } := by
    rw [State.laneEvent_lane_same, State.dropRowOp_lane_same ops]
    exact decided _ _
  refine law.keep (stamp := s.stamp) (fun m => ?_) fun m slot uid => State.Names.congr rfl slot uid
  by_cases same : m = l
  · subst same
    rw [ledger]
    exact .decided ops rfl rfl
  · rw [State.laneEvent_lane_other _ _ same, State.dropRowOp_lane_other s same]
    exact .refl ..

@[simp] theorem Lane.decisionTaken_ledger (x : Lane) : x.decisionTaken.ledger = { x.ledger with flying := false } := rfl

theorem Lane.grant_ledger (env : LaneEnv) (lift : LiftNo) (slot : Nat) (uid : Uid) (heads : Nat) (x : Lane) :
    (x.grant env l lift slot uid heads).ledger = { x.ledger with held := some (slot, uid), flying := false } := by
  rw [Lane.grant, Lane.decisionTaken_ledger, Lane.requestPlace_ledger, Lane.count_ledger]
  rfl

/-- A grant is of the row the pass has, which named no lane (R93, R98). -/
theorem State.decision_ok {uid : Uid} {lift : LiftNo} {slot : Nat} {row : PassRow} (h : s.decision uid lift = .ok (slot, row)) :
    slotAt s.table.slots slot = some row ∧ row.uid = uid ∧ row.pendingLane = none := by
  unfold State.decision at h
  split at h
  · cases h
  · next found =>
    split at h <;> cases h
    next passes =>
    obtain ⟨held, same, -⟩ := lookup_some found
    refine ⟨held, same, ?_⟩
    cases pending : row.pendingLane with
    | none => rfl
    | some m =>
      simp only [State.denialOf, pending, Option.isSome_some, if_true] at passes
      repeat' split at passes
      all_goals cases passes

/-- A grant makes the row name the lane, and the lane hold the row (R99). -/
theorem State.GrantLaw.granted (law : s.GrantLaw) {tap : Uid} {rest : List RowOp} (ops : (s.lane l).rowOps = .validate tap :: rest)
    {lift : LiftNo} {slot : Nat} {uid : Uid} {row : PassRow} (held : slotAt s.table.slots slot = some row) (same : row.uid = uid)
    (idle : row.pendingLane = none) : (((s.granted (.lane l)).dropRowOp l).grantAt l lift slot uid row).GrantLaw := by
  obtain ⟨free, rfl⟩ := ((State.grantLaw_iff.1 law).2 l).validate ops
  have ready : (s.lane l).resetsPending = 0 := by
    by_contra waits
    simp [law.discarded l waits] at ops
  have ledger : ((((s.granted (.lane l)).dropRowOp l).grantAt l lift slot uid row).lane l).ledger =
      { ops := [], resets := 0, held := some (slot, uid), flying := false } := by
    rw [State.grantAt, State.laneEvent_lane_same, State.writeRow_lane, State.dropRowOp_lane_same ops]
    exact (Lane.grant_ledger ..).trans (by simp [Lane.ledger, ready])
  have names (m : LaneNo) (k : Nat) (u : Uid) : (((s.granted (.lane l)).dropRowOp l).grantAt l lift slot uid row).Names m k u ↔
      (k = slot ∧ u = uid ∧ m = l) ∨ s.Names m k u := by
    have slots : (((s.granted (.lane l)).dropRowOp l).grantAt l lift slot uid row).table.slots =
        putSlot s.table.slots slot { row with pendingLane := some l } := rfl
    unfold State.Names
    rw [slots, slotAt_putSlot]
    split
    · next eq => subst eq; simp [held, same, idle, eq_comm]
    · next ne => simp [ne]
  refine law.at_lane (l := l) (fun m other => ?_) ?_ (fun k u => ?_) fun m other k u => ?_
  · rw [State.grantAt, State.laneEvent_lane_other _ _ other, State.writeRow_lane, State.dropRowOp_lane_other s other]
  · rw [ledger]
    exact .of_discarded rfl
  · rw [ledger, names, iff_false_intro (law.validating ops k u)]
    simp [Ledger.Owns, Ledger.claims, eq_comm]
  · simp [names, other]

/-- A validation decides one tap: a denial, nothing, or a grant (R92, R93, R99). -/
theorem execValidation_grantLaw (law : s.GrantLaw) (h : execValidation l s = .next t) : t.GrantLaw := by
  unfold execValidation at h
  split at h
  · cases h; exact law
  split at h <;> cases h
  · next uid s' taken =>
    obtain ⟨-, waits, rfl⟩ := State.takeRowOp_eq_some.1 taken
    obtain ⟨rest, ops⟩ := List.head?_eq_some_iff.1 waits
    have denied (reason : DenyReason) : (((s.granted (.lane l)).dropRowOp l).denyAt l reason).GrantLaw :=
      law.ungranted ops fun _ x => by rw [Lane.decisionTaken_ledger, Lane.deny_ledger]
    unfold State.validate State.validateServed
    split
    · split
      · exact denied _
      · split
        · exact denied _
        · next slot row decided =>
          obtain ⟨held, same, idle⟩ := State.decision_ok decided
          exact law.granted ops held same idle
    · split
      · exact denied _
      · exact law.ungranted ops fun _ x => Lane.decisionTaken_ledger x
  · exact law

/-- Behind a closing row operation stands nothing but the validation (R115). -/
theorem Ledger.Wf.closing {k : Ledger} (wf : k.Wf) {slot : Nat} {uid : Uid} {rest : List RowOp} (ops : k.ops = .closing slot uid :: rest) :
    k.held = none ∧ ({ k with ops := rest } : Ledger).Wf ∧ ∀ slot uid, RowOp.closing slot uid ∉ rest := by
  obtain ⟨free, later⟩ := wf.ordered [] rest _ ops
  have none_closing (slot : Nat) (uid : Uid) : RowOp.closing slot uid ∉ rest := fun mem => by
    obtain ⟨_, same⟩ := later _ mem
    cases same
  refine ⟨free, ⟨fun before after op h => ?_, fun waits => ?_⟩, none_closing⟩
  · dsimp only at h
    obtain ⟨uid', rfl⟩ := later op (h ▸ List.mem_append_right before List.mem_cons_self)
    exact wf.ordered (.closing slot uid :: before) after (.validate uid') (by rw [ops, h]; rfl)
  · simpa [ops] using wf.discarded waits

/-- The lane lets the row go, and the row its pending lane (R115). -/
theorem State.GrantLaw.closed (law : s.GrantLaw) {slot : Nat} {uid : Uid} {rest : List RowOp}
    (ops : (s.lane l).rowOps = .closing slot uid :: rest) : (((s.granted (.lane l)).dropRowOp l).closeRow l slot uid).GrantLaw := by
  obtain ⟨named, wf⟩ := State.grantLaw_iff.1 law
  obtain ⟨free, restWf, noneClosing⟩ := (wf l).closing ops
  have ready : (s.lane l).resetsPending = 0 := by
    by_contra waits
    simp [law.discarded l waits] at ops
  have owns (k : Nat) (u : Uid) : (s.lane l).ledger.Owns k u ↔ k = slot ∧ u = uid := by
    have mem : RowOp.closing k u ∈ (s.lane l).ledger.ops ↔ k = slot ∧ u = uid := by
      rw [show (s.lane l).ledger.ops = .closing slot uid :: rest from ops]
      simp [noneClosing]
    simp only [Ledger.Owns, Ledger.claims, free, mem, reduceCtorEq, false_or]
    exact and_iff_right ready
  obtain ⟨row, held, same, pending⟩ := (named l slot uid).1 ((owns slot uid).2 ⟨rfl, rfl⟩)
  have closed : ((s.granted (.lane l)).dropRowOp l).closeRow l slot uid =
      ((s.granted (.lane l)).dropRowOp l).writeRow slot { row with pendingLane := none } := by
    have found : ((s.granted (.lane l)).dropRowOp l).rowOf slot uid = some row := State.rowOf_eq_some.2 ⟨held, same⟩
    simp [State.closeRow, found, pending]
  rw [closed]
  have ledger : ((((s.granted (.lane l)).dropRowOp l).writeRow slot { row with pendingLane := none }).lane l).ledger =
      { (s.lane l).ledger with ops := rest } := by
    rw [State.writeRow_lane, State.dropRowOp_lane_same ops]
    rfl
  have names (m : LaneNo) (k : Nat) (u : Uid) :
      (((s.granted (.lane l)).dropRowOp l).writeRow slot { row with pendingLane := none }).Names m k u ↔ k ≠ slot ∧ s.Names m k u := by
    have slots : (((s.granted (.lane l)).dropRowOp l).writeRow slot { row with pendingLane := none }).table.slots =
        putSlot s.table.slots slot { row with pendingLane := none } := rfl
    unfold State.Names
    rw [slots, slotAt_putSlot]
    split
    · next eq => simp [eq]
    · next ne => simp [ne]
  refine law.at_lane (l := l) (fun m other => ?_) ?_ (fun k u => ?_) fun m other k u => ?_
  · rw [State.writeRow_lane, State.dropRowOp_lane_other s other]
  · rw [ledger]
    exact restWf
  · rw [ledger, names, ← named, owns]
    simp only [Ledger.Owns, Ledger.claims, free, noneClosing]
    simp only [reduceCtorEq, or_self, and_false, false_iff]
    rintro ⟨ne, eq, -⟩
    exact ne eq
  · rw [names]
    refine ⟨And.right, fun held' => ⟨?_, held'⟩⟩
    rintro rfl
    obtain ⟨row', held', -, pending'⟩ := held'
    rw [held] at held'
    cases held'
    exact other (Option.some.inj (pending'.symm.trans pending))

/-- The closing row operation clears the row's pending lane, and the lane lets the row go (R115). -/
theorem execClosingRowOperation_grantLaw (law : s.GrantLaw) (h : execClosingRowOperation l s = .next t) : t.GrantLaw := by
  unfold execClosingRowOperation at h
  split at h <;> cases h
  · next slot uid s' taken =>
    obtain ⟨-, waits, rfl⟩ := State.takeRowOp_eq_some.1 taken
    obtain ⟨rest, ops⟩ := List.head?_eq_some_iff.1 waits
    exact law.closed ops
  · exact law

theorem execPowerOnReset_grantLaw (h : execPowerOnReset s = .next t) : t.GrantLaw := by
  refine .of_idle (fun l => ?_) (fun l => ?_) ?_
  · rw [execPowerOnReset_lane h]; rfl
  · rw [execPowerOnReset_lane h]; rfl
  · cases h; rfl

/-- Every command keeps the two ends of a grant together. -/
theorem exec_grantLaw {c : Instr} (table : s.TableLaw) (law : s.GrantLaw) (h : exec c s = .next t) : t.GrantLaw := by
  by_cases on : c = .powerOnReset
  · subst on
    exact execPowerOnReset_grantLaw h
  cases other : settlesGrants c with
  | false => exact exec_grantLaw_unsettled table law h on other
  | true =>
    cases c
    case validation l => exact execValidation_grantLaw law h
    case closingRowOperation l => exact execClosingRowOperation_grantLaw law h
    case stationReset => exact execStationReset_grantLaw law h
    case laneStationReset l => exact execLaneStationReset_grantLaw law h
    all_goals cases other

theorem State.tableLaw_pending {rest : List Instr} (table : s.TableLaw) : State.TableLaw { s with pending := rest } :=
  ⟨table.canonical, table.placed, table.once, table.clearing⟩

theorem State.grantLaw_pending {rest : List Instr} (law : s.GrantLaw) : State.GrantLaw { s with pending := rest } :=
  ⟨law.named, law.ordered, law.discarded⟩

theorem step_grantLaw (table : s.TableLaw) (law : s.GrantLaw) (h : step s = .next t) : t.GrantLaw := by
  rcases step_cases h with rfl | ⟨c, rest, h⟩
  · exact law.keep (fun l => (s.tick_moves l).keeps) fun l slot uid => State.Names.congr rfl slot uid
  · exact exec_grantLaw (State.tableLaw_pending table) (State.grantLaw_pending law) h

/-! ### The days handed with a passage (R28, R111) -/

theorem Lane.Decision.rowOps {env : LaneEnv} {x z : Lane} (h : Lane.Decision env l x z) : z.rowOps = x.rowOps := by
  cases h with
  | denied reason => exact (congrArg Ledger.ops (Lane.deny_ledger reason))
  | ignored => rfl
  | granted slot uid lift heads inService served => exact congrArg Ledger.ops (Lane.grant_ledger env lift slot uid heads x)

/-- A passage in the list of a lane was in it before, or bears the stamp of the event that handed it (R111). -/
theorem Lane.Moves.stamps {pends : Prop} {stamp given : Stamp} {x y : Lane} (h : Lane.Moves pends stamp l x y) {slot head : Nat} {uid : Uid}
    {lift : LiftNo} (mem : RowOp.passage slot uid head lift given ∈ y.rowOps) :
    RowOp.passage slot uid head lift given ∈ x.rowOps ∨ given = stamp := by
  cases h with
  | aside h ops resets => exact .inl (ops ▸ mem)
  | opTaken h ops resets passage => exact .inl (ops ▸ .tail _ mem)
  | resetStarted who h ops resets => exact absurd (ops ▸ mem) List.not_mem_nil
  | event env read h settles =>
    subst read settles
    exact h.keeps.stamps slot uid head lift given mem
  | decided who env ops h settles =>
    subst settles
    have kept := h.rowOps
    dsimp only [Lane.settle] at mem kept
    exact .inl (ops ▸ .tail _ (kept ▸ mem))
  | reset who waits settles =>
    subst settles
    exact absurd mem List.not_mem_nil

/-- The current day, where there is one, is a day of the season. -/
def State.DayHeld (s : State) : Prop := ∀ d, s.calendar.currentDay = some d → d ≤ 239

theorem State.DayHeld.congr (law : s.DayHeld) (same : t.calendar.currentDay = s.calendar.currentDay) : t.DayHeld := fun d h =>
  law d (same ▸ h)

@[simp] theorem Calendar.setDay_currentDay (c : Calendar) (d : Nat) (r : DayRecord) : (c.setDay d r).currentDay = c.currentDay := rfl

@[simp] theorem State.gatherClosure_currentDay (s : State) : s.gatherClosure.calendar.currentDay = s.calendar.currentDay := by
  unfold State.gatherClosure
  repeat' split
  all_goals rfl

/-- DAY_OPEN refuses a day beyond 239 (R31). -/
theorem execDayOpen_dayHeld (law : s.DayHeld) (h : execDayOpen s = .next t) : t.DayHeld := by
  unfold execDayOpen at h
  split at h
  · cases h; exact law
  · next r s' taken =>
    obtain ⟨-, -, rfl⟩ := State.takeRequest_eq_some.1 taken
    dsimp only at h
    split at h
    · cases h; exact law.congr (by simp)
    · next inSeason =>
      repeat' split at h
      · cases h; exact law.congr (by simp)
      · cases h; exact law.congr (by simp)
      · cases h
        intro d opened
        rw [State.answer_calendar] at opened
        cases opened
        omega

/-- Only power-on reset and DAY_OPEN change the current day (R28, R31). -/
theorem exec_currentDay {c : Instr} (h : exec c s = .next t) (on : c ≠ .powerOnReset) (opens : c ≠ .dayOpen) :
    t.calendar.currentDay = s.calendar.currentDay := by
  by_cases still : Part.calendar ∉ Part.writtenBy c
  · exact congrArg Calendar.currentDay (exec_frame h .calendar still)
  cases c
  case powerOnReset => exact absurd rfl on
  case dayOpen => exact absurd rfl opens
  case countAdvance =>
    simp only [exec, execCountAdvance] at h
    repeat' split at h
    all_goals cases h; simp
  case laneDayOpen l =>
    simp only [exec, execLaneDayOpen] at h
    split at h <;> cases h <;> rfl
  case laneDayClose l =>
    simp only [exec, execLaneDayClose] at h
    split at h <;> cases h <;> rfl
  case journalDayOpen =>
    simp only [exec, execJournalDayOpen] at h
    split at h <;> cases h <;> rfl
  case protectionDayOpen =>
    simp only [exec, execProtectionDayOpen] at h
    split at h <;> cases h <;> rfl
  case noticeRaise source => cases source <;> exact absurd (by simp [Part.writtenBy]) still
  case passageRecordTake owner => cases owner <;> exact absurd (by simp [Part.writtenBy]) still
  case config owner =>
    cases owner
    case calendar =>
      simp only [exec, execConfig] at h
      split at h
      · cases h; rfl
      · next taken =>
        obtain ⟨-, -, rfl⟩ := State.takeRequest_eq_some.1 taken
        cases h
        simp [State.thresholdSetting]
    all_goals exact absurd (by simp [Part.writtenBy]) still
  case dayClose =>
    simp only [exec, execDayClose] at h
    split at h
    · cases h; rfl
    · next taken =>
      obtain ⟨-, -, rfl⟩ := State.takeRequest_eq_some.1 taken
      repeat' split at h
      all_goals cases h; simp [Calendar.closeDay]
  case time =>
    simp only [exec, execTime] at h
    split at h
    · cases h; rfl
    · next taken =>
      obtain ⟨-, -, rfl⟩ := State.takeRequest_eq_some.1 taken
      split at h
      all_goals cases h; simp
  case calendarPut =>
    simp only [exec, execCalendarPut] at h
    split at h
    · cases h; rfl
    · next taken =>
      obtain ⟨-, -, rfl⟩ := State.takeRequest_eq_some.1 taken
      repeat' split at h
      all_goals cases h; simp
  all_goals exact absurd (by simp [Part.writtenBy]) still

theorem exec_dayHeld {c : Instr} (law : s.DayHeld) (h : exec c s = .next t) : t.DayHeld := by
  by_cases on : c = .powerOnReset
  · subst on
    cases h
    exact fun d opened => by cases opened
  by_cases opens : c = .dayOpen
  · subst opens
    exact execDayOpen_dayHeld law h
  · exact law.congr (exec_currentDay h on opens)

theorem step_dayHeld (law : s.DayHeld) (h : step s = .next t) : t.DayHeld := by
  rcases step_cases h with rfl | ⟨c, rest, h⟩
  · exact law.congr rfl
  · exact exec_dayHeld (s := { s with pending := rest }) law h

/-- A passage still to be performed bears no day beyond the season: it was handed before, or with the current day. -/
theorem step_stamps (law : s.ListLaw) (h : step s = .next t) (l : LaneNo) (slot : Nat) (uid : Uid) (head : Nat) (lift : LiftNo) (stamp : Stamp)
    (d : Nat) (mem : RowOp.passage slot uid head lift stamp ∈ (t.lane l).rowOps) (day : stamp.day = some d) : d ≤ 239 := by
  rcases step_lanes h with afresh | moves
  · obtain ⟨present, latch, active, eq⟩ := afresh l
    rw [eq] at mem
    cases mem
  · rcases (moves l).stamps mem with old | rfl
    · exact law.stamps l slot uid head lift stamp d old day
    · exact law.current d day

theorem step_listLaw (counts : s.CountLaw) (law : s.ListLaw) (h : step s = .next t) : t.ListLaw :=
  ⟨step_rowsFit counts law h, step_dayHeld law.current h, step_stamps law h⟩

end
end Sys2Proof.Machine

open Sys2Proof Sys2Proof.Machine

/-- Settles O10: rows fit their products by the row changes, and a day reaches a stamp only from the current day (R28, R111). -/
theorem listLawKept : Obligations.ListLawKept := fun _ _ => step_listLaw

/-- Settles O14: each lane's law and counters by its own events, the two ends of a grant by the ledgers of the lanes and the rows that name them. -/
theorem laneLawKept : Obligations.LaneLawKept :=
  ⟨fun _ _ => step_laneLaw, fun _ _ => step_counterLaw, fun _ _ => step_grantLaw⟩
end

section
set_option Elab.async false
/-! The calendar and the day clock: their records, the credit percent, and what each of their requests and effects answers (R27 to R42). -/
namespace Sys2Proof.Machine

/-! ### Day records -/

section
variable {c : Calendar}

theorem Calendar.setDay_day_same {d : Nat} (r : DayRecord) (inSeason : d ≤ 239) : (c.setDay d r).day d = r := by
  simp [Calendar.setDay, Calendar.day, Nat.lt_succ_of_le inSeason]

theorem Calendar.setDay_day_other {k d : Nat} (r : DayRecord) (other : k ≠ d) : (c.setDay d r).day k = c.day k := by
  simp [Calendar.setDay, Calendar.day, Ne.symm other]

theorem Calendar.openDay_day_same {n : Nat} (inSeason : n ≤ 239) : (c.openDay n).day n = { c.day n with state := .opened } :=
  Calendar.setDay_day_same _ inSeason

theorem Calendar.openDay_day_other {k n : Nat} (other : k ≠ n) : (c.openDay n).day k = c.day k := Calendar.setDay_day_other _ other

theorem Calendar.openDay_toLanes (c : Calendar) (n : Nat) (l : LaneNo) : (c.openDay n).toLanes[l] = c.toLanes[l] ++ [.opened] :=
  Vector.getElem_map ..

theorem Calendar.closeDay_day_same {d credit : Nat} (inSeason : d ≤ 239) : (c.closeDay d credit).day d = (c.day d).closed credit :=
  Calendar.setDay_day_same _ inSeason

theorem Calendar.closeDay_day_other {k d credit : Nat} (other : k ≠ d) : (c.closeDay d credit).day k = c.day k :=
  Calendar.setDay_day_other _ other

theorem Calendar.closeDay_toLanes (c : Calendar) (d credit : Nat) (l : LaneNo) :
    (c.closeDay d credit).toLanes[l] = c.toLanes[l] ++ [.closed] := Vector.getElem_map ..

theorem Calendar.isOpen_iff : c.isOpen = true ↔ ∃ d, c.currentDay = some d ∧ (c.day d).state = .opened := by
  unfold Calendar.isOpen
  cases c.currentDay <;> simp

theorem Calendar.isOpen_eq_false : c.isOpen = false ↔ ∀ d, c.currentDay = some d → (c.day d).state ≠ .opened := by
  simp [← Bool.not_eq_true, Calendar.isOpen_iff]

end

theorem DayRecord.put_absent {r : DayRecord} {f : CalendarForm} (dayClass : DayClass) (absent : f.credit.presence = 0) :
    r.put dayClass f = { r with dayClass := dayClass, operatingMinutes := min 1440 f.operatingMinutes } := by
  simp [DayRecord.put, OptionalField.get, absent]

theorem DayRecord.put_present {r : DayRecord} {f : CalendarForm} (dayClass : DayClass) (present : f.credit.presence = 1) :
    r.put dayClass f = { r with dayClass := dayClass, operatingMinutes := min 1440 f.operatingMinutes,
                                creditPercent := min 100 f.credit.value, source := .set } := by
  simp [DayRecord.put, OptionalField.get, present]

theorem CalendarForm.clamps_iff (f : CalendarForm) :
    f.clamps = true ↔ 1440 < f.operatingMinutes ∨ (f.credit.presence = 1 ∧ 100 < f.credit.value) := by
  by_cases present : f.credit.presence = 1 <;> simp [CalendarForm.clamps, OptionalField.get, present]

theorem dayClassOf_eq_none {n : Nat} : dayClassOf n = none ↔ 2 < n := by
  match n with
  | 0 | 1 | 2 => simp [dayClassOf]
  | n + 3 => simp [dayClassOf]

/-! ### The credit percent (R37, R38) -/

section
variable {s : State} {d : Nat}

theorem computedCredit_earned {r : DayRecord} {enabledLifts threshold : Nat} (reached : threshold ≤ r.closedLiftMinutes)
    (operating : 0 < r.operatingMinutes * enabledLifts) :
    computedCredit r enabledLifts threshold = min 100 (100 * r.closedLiftMinutes / (r.operatingMinutes * enabledLifts)) :=
  if_pos ⟨reached, operating⟩

theorem computedCredit_none {r : DayRecord} {enabledLifts threshold : Nat}
    (short : r.closedLiftMinutes < threshold ∨ r.operatingMinutes * enabledLifts = 0) : computedCredit r enabledLifts threshold = 0 :=
  if_neg fun ⟨reached, operating⟩ => short.elim (Nat.not_lt.2 reached) operating.ne'

theorem computedCredit_le (r : DayRecord) (enabledLifts threshold : Nat) : computedCredit r enabledLifts threshold ≤ 100 := by
  unfold computedCredit
  dsimp only
  split
  · exact Nat.min_le_left ..
  · exact Nat.zero_le _

theorem State.creditPercent_computed (live : (s.calendar.day d).source = .computed) :
    s.creditPercent d = computedCredit (s.calendar.day d) s.enabledLifts s.calendar.closureThreshold := by
  simp only [State.creditPercent, live]

theorem State.creditPercent_stored (stored : (s.calendar.day d).source ≠ .computed) :
    s.creditPercent d = (s.calendar.day d).creditPercent := by
  unfold State.creditPercent
  cases source : (s.calendar.day d).source with
  | computed => exact absurd source stored
  | frozen => simp only [source]
  | set => simp only [source]

/-! ### Closed lift-minutes (R35) -/

/-- A lift that is enabled stands in the state its debounced lines spell (R69). -/
theorem State.weatherClosedLifts_eq (s : State) : s.weatherClosedLifts =
    liftNumbers.countP fun i => (s.lift i).enabled && decide ((s.lift i).lineState.debounced = .closedWeather) := by
  unfold State.weatherClosedLifts
  congr 1
  funext i
  cases enabled : (s.lift i).enabled <;> simp [Lift.state, enabled]

theorem State.gatherClosure_closed (closed : s.calendar.isOpen = false) : s.gatherClosure = s := by
  unfold State.gatherClosure
  split
  · rfl
  · next d current => rw [if_neg (Calendar.isOpen_eq_false.1 closed d current)]

theorem State.gatherClosure_opened (current : s.calendar.currentDay = some d) (opened : (s.calendar.day d).state = .opened) :
    s.gatherClosure = { s with calendar := s.calendar.setDay d ((s.calendar.day d).gather s.weatherClosedLifts) } := by
  simp only [State.gatherClosure, current, opened, if_true]

end

/-! ### What the calendar's owner answers (R30, R31, R33, R35, R39) -/

section
variable {s : State} {r : Routed}

theorem exec_dayOpen (h : s.Routes .calendar .dayOpen r) : exec .dayOpen s =
    if 239 < field r.body 0 1 then .next ((s.dropNextFor .calendar).answer r.place .range [])
    else if s.calendar.isOpen then .next ((s.dropNextFor .calendar).answer r.place .wrongState [])
    else if s.calendar.currentDay.any (fun d => decide (field r.body 0 1 ≤ d)) then
      .next ((s.dropNextFor .calendar).answer r.place .dayOrder [])
    else .next ({ s.dropNextFor .calendar with calendar := s.calendar.openDay (field r.body 0 1) }.answer r.place .ok []) := by
  simp only [exec, execDayOpen, h.take, State.dropNextFor_calendar]
  rfl

theorem exec_dayClose_refused (h : s.Routes .calendar .dayClose r) (closed : s.calendar.isOpen = false) :
    exec .dayClose s = .next ((s.dropNextFor .calendar).answer r.place .wrongState []) := by
  simp only [exec, execDayClose, h.take, State.dropNextFor_calendar, closed]
  split <;> rfl

theorem exec_dayClose_taken {d : Nat} (h : s.Routes .calendar .dayClose r) (current : s.calendar.currentDay = some d)
    (opened : (s.calendar.day d).state = .opened) : exec .dayClose s =
      .next ({ s.dropNextFor .calendar with calendar := s.calendar.closeDay d (s.creditPercent d) }.answer r.place .ok []) := by
  simp only [exec, execDayClose, h.take, State.dropNextFor_calendar, current, Calendar.isOpen_iff.2 ⟨d, current, opened⟩, if_true]
  rfl

theorem exec_time (h : s.Routes .calendar .time r) : exec .time s =
    if 86399 < field r.body 0 4 then .next ((s.dropNextFor .calendar).answer r.place .range [])
    else
      .next ({ s.dropNextFor .calendar with
                calendar := { s.calendar with secondOfDay := field r.body 0 4, subSecondPhase := 0 } }.answer r.place .ok []) := by
  simp only [exec, execTime, h.take, State.dropNextFor_calendar]

theorem exec_countAdvance_early (early : s.calendar.subSecondPhase < 32768) : exec .countAdvance s = .next s :=
  if_pos (by simpa [Calendar.secondDone_iff, ← Bool.not_eq_true] using early)

theorem exec_countAdvance (done : 32768 ≤ s.calendar.subSecondPhase) : exec .countAdvance s =
    if nextSecond s.calendar.secondOfDay % 60 = 0 then .next (State.gatherClosure { s with calendar := s.calendar.count })
    else .next { s with calendar := s.calendar.count } :=
  if_neg (by simp [(Calendar.secondDone_iff _).2 done])

theorem exec_calendarPut_range (h : s.Routes .calendar .calendarPut r) (beyond : 239 < (calendarForm r.body).day) :
    exec .calendarPut s = .next ((s.dropNextFor .calendar).answer r.place .range []) := by
  simp only [exec, execCalendarPut, h.take, beyond, if_true]

theorem exec_calendarPut_bad (h : s.Routes .calendar .calendarPut r) (inSeason : (calendarForm r.body).day ≤ 239)
    (bad : 2 < (calendarForm r.body).classCode ∨ 1 < (calendarForm r.body).credit.presence) :
    exec .calendarPut s = .next ((s.dropNextFor .calendar).answer r.place .badField []) := by
  simp only [exec, execCalendarPut, h.take, Nat.not_lt.2 inSeason, if_false]
  split
  · rfl
  · next named =>
    have presence := bad.resolve_left fun beyond => by simp [dayClassOf_eq_none.2 beyond] at named
    exact if_pos (by simp [isFlag, presence])

theorem exec_calendarPut_taken {dayClass : DayClass} (h : s.Routes .calendar .calendarPut r) (inSeason : (calendarForm r.body).day ≤ 239)
    (named : dayClassOf (calendarForm r.body).classCode = some dayClass) (presence : (calendarForm r.body).credit.presence ≤ 1) :
    exec .calendarPut s =
      .next ({ s.dropNextFor .calendar with
                calendar := s.calendar.setDay (calendarForm r.body).day
                  ((s.calendar.day (calendarForm r.body).day).put dayClass (calendarForm r.body)) }.answer r.place
        (if (calendarForm r.body).clamps then .okClamped else .ok) []) := by
  simp only [exec, execCalendarPut, h.take, Nat.not_lt.2 inSeason, if_false, named, State.dropNextFor_calendar]
  exact if_neg (by simp [isFlag, presence])

end

end Sys2Proof.Machine

open Sys2Proof Sys2Proof.Machine

/-- Settles O42: DAY_OPEN by its checks in order, DAY_CLOSE by the day state, and each effect by the owner that takes it. -/
theorem daysOpenAndClose : Obligations.DaysOpenAndClose := by
  refine ⟨?_, ?_, ?_, ?_, ?_, ?_⟩
  · rintro s d operating rfl
    refine ⟨State.creditPercent_stored, fun live => ?_⟩
    rw [State.creditPercent_computed live]
    exact ⟨computedCredit_earned, computedCredit_none⟩
  · rintro s r n routes rfl
    rw [exec_dayOpen routes]
    refine ⟨fun beyond => if_pos beyond, fun inSeason opened => ?_, fun inSeason ⟨d, current, closed, notAfter⟩ => ?_,
      fun inSeason earlier => ?_⟩
    all_goals rw [if_neg (Nat.not_lt.2 inSeason)]
    · rw [if_pos (Calendar.isOpen_iff.2 opened)]
    · have notOpen : s.calendar.isOpen = false := Calendar.isOpen_eq_false.2 fun k held => by
        obtain rfl := Option.some.inj (current.symm.trans held)
        exact closed
      simp [notOpen, current, notAfter]
    · have notOpen : s.calendar.isOpen = false := Calendar.isOpen_eq_false.2 fun d current => (earlier d current).1
      have after : s.calendar.currentDay.any (fun d => decide (field r.body 0 1 ≤ d)) = false :=
        (Option.any_eq_false ..).2 fun d current => by simpa using (earlier d current).2
      rw [notOpen, after]
      exact ⟨_, rfl, rfl, Calendar.openDay_day_same inSeason, fun _ _ => Calendar.openDay_day_other, Calendar.openDay_toLanes _ _, rfl, rfl,
        rfl, rfl, rfl⟩
  · intro s r routes
    refine ⟨fun closed => exec_dayClose_refused routes (Calendar.isOpen_eq_false.2 closed), fun d inSeason current opened => ?_⟩
    exact ⟨_, exec_dayClose_taken routes current opened, current, Calendar.closeDay_day_same inSeason,
      fun _ _ => Calendar.closeDay_day_other, Calendar.closeDay_toLanes _ _ _, rfl, rfl, rfl, rfl, rfl⟩
  · intro s l rest waits
    rw [show exec (.laneDayOpen l) s = _ from if_pos (by rw [waits]; rfl), State.dropDayChange, waits]
    rfl
  · intro s l rest waits
    rw [show exec (.laneDayClose l) s = _ from if_pos (by rw [waits]; rfl), State.dropDayChange, waits]
    rfl
  · intro s waits
    exact ⟨_, show exec .journalDayOpen s = _ from if_neg waits, rfl, fun i hour => by simp, fun i => by simp, rfl, rfl⟩

/-- Settles O43: TIME and CALENDAR_PUT by their checks in order, the count advance by the second it reaches. -/
theorem clockAndCalendarWritten : Obligations.ClockAndCalendarWritten := by
  refine ⟨fun _ => rfl, rfl, fun _ => dayClassOf_eq_none.2, ?_, fun _ => exec_countAdvance_early, ?_, ?_⟩
  · intro s r routes
    rw [exec_time routes]
    exact ⟨fun beyond => if_pos beyond, fun legal => if_neg (Nat.not_lt.2 legal)⟩
  · rintro s second c done rfl rfl
    rw [exec_countAdvance done]
    refine ⟨fun idle => ?_, fun d minute current opened => ?_⟩
    · by_cases minute : nextSecond s.calendar.secondOfDay % 60 = 0
      · have closed := Calendar.isOpen_eq_false.2 (idle.resolve_left (absurd minute))
        rw [if_pos minute, State.gatherClosure_closed (s := { s with calendar := s.calendar.count }) closed]
        rfl
      · exact if_neg minute
    · refine (if_pos minute).trans ?_
      rw [State.gatherClosure_opened (s := { s with calendar := s.calendar.count }) current opened, State.weatherClosedLifts_eq]
      rfl
  · rintro s r f routes rfl
    refine ⟨exec_calendarPut_range routes, exec_calendarPut_bad routes, fun dayClass inSeason named presence => ?_⟩
    have clamps := (calendarForm r.body).clamps_iff
    refine ⟨_, _, exec_calendarPut_taken routes inSeason named presence, ?_, ?_, fun absent => ?_, fun present => ?_,
      fun _ _ => Calendar.setDay_day_other _, rfl⟩
    · rw [← clamps]
      cases (calendarForm r.body).clamps <;> simp
    · have unclamped : (calendarForm r.body).clamps = false ↔ (calendarForm r.body).operatingMinutes ≤ 1440
          ∧ ((calendarForm r.body).credit.presence = 0 ∨ (calendarForm r.body).credit.value ≤ 100) := by
        rw [← Bool.not_eq_true, clamps]
        omega
      rw [← unclamped]
      cases (calendarForm r.body).clamps <;> simp
    · rw [Calendar.setDay_day_same _ inSeason, DayRecord.put_absent dayClass absent]
    · rw [Calendar.setDay_day_same _ inSeason, DayRecord.put_present dayClass present]
end

section
set_option Elab.async false
/-! What a command can do to the calendar: said once, and its law derived from it (R27 to R31). -/
namespace Sys2Proof.Machine

/-! ### What a command can do to the calendar -/

/-- The changes of the calendar: hand-offs, the sub-second phase and the threshold set aside, the clock is set or counts, a minute is gathered on the
OPEN day, a day opens after the current one, the OPEN day closes, and CALENDAR_PUT writes a record. -/
inductive Calendar.Change (c : Calendar) : Calendar → Prop
  | aside {x : Calendar} (days : x.days = c.days) (current : x.currentDay = c.currentDay) (second : x.secondOfDay = c.secondOfDay) :
      Change c x
  | clock {second : Nat} (phase : Nat) (legal : second ≤ 86399) : Change c { c with secondOfDay := second, subSecondPhase := phase }
  | minute {d : Nat} (lifts : Nat) (current : c.currentDay = some d) (opened : (c.day d).state = .opened) :
      Change c (c.count.setDay d ((c.day d).gather lifts))
  | opens {n : Nat} (inSeason : n ≤ 239) (after : ∀ d, c.currentDay = some d → d < n) : Change c (c.openDay n)
  | closes {d credit : Nat} (current : c.currentDay = some d) (opened : (c.day d).state = .opened)
      (legal : (c.day d).source = .computed → credit ≤ 100) : Change c (c.closeDay d credit)
  | put {d : Nat} (dayClass : DayClass) (f : CalendarForm) (inSeason : d ≤ 239) : Change c (c.setDay d ((c.day d).put dayClass f))

theorem Calendar.Change.of_eq {c x : Calendar} (same : x = c) : Calendar.Change c x := by
  subst same
  exact .aside rfl rfl rfl

theorem nextSecond_le (second : Nat) : nextSecond second ≤ 86399 := by
  unfold nextSecond
  split <;> omega

section
variable {s t : State}

theorem exec_dayOpen_change {r : Routed} (routes : s.Routes .calendar .dayOpen r) (h : exec .dayOpen s = .next t) :
    s.calendar.Change t.calendar := by
  rw [exec_dayOpen routes] at h
  split at h
  · cases h; exact .of_eq (by simp)
  next inSeason =>
  split at h
  · cases h; exact .of_eq (by simp)
  split at h
  · cases h; exact .of_eq (by simp)
  next after =>
    cases h
    rw [State.answer_calendar]
    exact .opens (Nat.not_lt.1 inSeason) fun d current => by simpa [current] using after

theorem exec_dayClose_change {r : Routed} (routes : s.Routes .calendar .dayClose r) (h : exec .dayClose s = .next t) :
    s.calendar.Change t.calendar := by
  cases status : s.calendar.isOpen with
  | false =>
    rw [exec_dayClose_refused routes status] at h
    cases h
    exact .of_eq (by simp)
  | true =>
    obtain ⟨d, current, opened⟩ := Calendar.isOpen_iff.1 status
    rw [exec_dayClose_taken routes current opened] at h
    cases h
    rw [State.answer_calendar]
    exact .closes current opened fun live => State.creditPercent_computed live ▸ computedCredit_le ..

theorem exec_time_change {r : Routed} (routes : s.Routes .calendar .time r) (h : exec .time s = .next t) :
    s.calendar.Change t.calendar := by
  rw [exec_time routes] at h
  split at h
  · cases h; exact .of_eq (by simp)
  next legal =>
    cases h
    rw [State.answer_calendar]
    exact .clock 0 (Nat.not_lt.1 legal)

theorem exec_calendarPut_change {r : Routed} (routes : s.Routes .calendar .calendarPut r) (h : exec .calendarPut s = .next t) :
    s.calendar.Change t.calendar := by
  by_cases beyond : 239 < (calendarForm r.body).day
  · rw [exec_calendarPut_range routes beyond] at h
    cases h
    exact .of_eq (by simp)
  have inSeason := Nat.not_lt.1 beyond
  by_cases bad : 2 < (calendarForm r.body).classCode ∨ 1 < (calendarForm r.body).credit.presence
  · rw [exec_calendarPut_bad routes inSeason bad] at h
    cases h
    exact .of_eq (by simp)
  obtain ⟨known, presence⟩ := not_or.1 bad
  obtain ⟨dayClass, named⟩ := Option.ne_none_iff_exists'.1 (mt dayClassOf_eq_none.1 known)
  rw [exec_calendarPut_taken routes inSeason named (Nat.not_lt.1 presence)] at h
  cases h
  rw [State.answer_calendar]
  exact .put dayClass _ inSeason

theorem exec_countAdvance_change (h : exec .countAdvance s = .next t) : s.calendar.Change t.calendar := by
  by_cases early : s.calendar.subSecondPhase < 32768
  · rw [exec_countAdvance_early early] at h
    cases h
    exact .of_eq rfl
  rw [exec_countAdvance (Nat.not_lt.1 early)] at h
  have counted : s.calendar.Change s.calendar.count := .clock _ (nextSecond_le _)
  split at h
  · cases h
    cases status : s.calendar.isOpen with
    | false => rwa [State.gatherClosure_closed (s := { s with calendar := s.calendar.count }) status]
    | true =>
      obtain ⟨d, current, opened⟩ := Calendar.isOpen_iff.1 status
      rw [State.gatherClosure_opened (s := { s with calendar := s.calendar.count }) current opened]
      exact .minute _ current opened
  · cases h
    exact counted

/-- Each command but power-on reset makes one of the changes. -/
theorem exec_calendar {c : Instr} (h : exec c s = .next t) (on : c ≠ .powerOnReset) : s.calendar.Change t.calendar := by
  by_cases still : Part.calendar ∉ Part.writtenBy c
  · exact .of_eq (exec_frame h .calendar still)
  by_cases stands : s.stands c
  swap
  · rw [exec_of_not_stands stands] at h
    cases h
    exact .of_eq rfl
  cases c
  case powerOnReset => exact absurd rfl on
  case dayOpen => exact stands.elim fun _ routes => exec_dayOpen_change routes h
  case dayClose => exact stands.elim fun _ routes => exec_dayClose_change routes h
  case time => exact stands.elim fun _ routes => exec_time_change routes h
  case calendarPut => exact stands.elim fun _ routes => exec_calendarPut_change routes h
  case countAdvance => exact exec_countAdvance_change h
  case laneDayOpen | laneDayClose | journalDayOpen | protectionDayOpen =>
    simp only [exec, execLaneDayOpen, execLaneDayClose, execJournalDayOpen, execProtectionDayOpen] at h
    split at h <;> cases h <;> exact .aside rfl rfl rfl
  case config owner =>
    cases owner
    case calendar =>
      obtain ⟨r, routes⟩ := stands
      simp only [exec, execConfig, State.Routes.take routes] at h
      cases h
      simp only [State.thresholdSetting, State.jointAnswer_calendar]
      exact .aside rfl rfl rfl
    all_goals exact absurd (by simp [Part.writtenBy]) still
  case noticeRaise source => cases source <;> exact absurd (by simp [Part.writtenBy]) still
  case passageRecordTake owner => cases owner <;> exact absurd (by simp [Part.writtenBy]) still
  all_goals exact absurd (by simp [Part.writtenBy]) still

end

/-! ### The law of the calendar -/

/-- The fields of a day record lie in their ranges (R27, R35, R37). -/
def DayRecord.InRange (r : DayRecord) : Prop := r.operatingMinutes ≤ 1440 ∧ r.closedLiftMinutes ≤ 5760 ∧ r.creditPercent ≤ 100

section
variable {r : DayRecord}

theorem DayRecord.InRange.gather (h : r.InRange) (lifts : Nat) : (r.gather lifts).InRange := by
  obtain ⟨operating, -, stored⟩ := h
  exact ⟨operating, Nat.min_le_left .., stored⟩

theorem DayRecord.InRange.closed {credit : Nat} (h : r.InRange) (legal : r.source = .computed → credit ≤ 100) :
    (r.closed credit).InRange := by
  obtain ⟨operating, closed, stored⟩ := h
  unfold DayRecord.closed
  split
  · next live => exact ⟨operating, closed, legal live⟩
  all_goals exact ⟨operating, closed, stored⟩

theorem DayRecord.InRange.put (h : r.InRange) (dayClass : DayClass) (f : CalendarForm) : (r.put dayClass f).InRange := by
  obtain ⟨-, closed, stored⟩ := h
  unfold DayRecord.put
  dsimp only
  split
  · exact ⟨Nat.min_le_left .., closed, Nat.min_le_left ..⟩
  · exact ⟨Nat.min_le_left .., closed, stored⟩

@[simp] theorem DayRecord.closed_state (r : DayRecord) (credit : Nat) : (r.closed credit).state = .closed := by
  unfold DayRecord.closed
  split <;> rfl

@[simp] theorem DayRecord.put_state (r : DayRecord) (dayClass : DayClass) (f : CalendarForm) : (r.put dayClass f).state = r.state := by
  unfold DayRecord.put
  dsimp only
  split <;> rfl

@[simp] theorem DayRecord.put_closedLiftMinutes (r : DayRecord) (dayClass : DayClass) (f : CalendarForm) :
    (r.put dayClass f).closedLiftMinutes = r.closedLiftMinutes := by
  unfold DayRecord.put
  dsimp only
  split <;> rfl

end

section
variable {c x : Calendar}

theorem Calendar.Law.congr (law : c.Law) (days : x.days = c.days) (current : x.currentDay = c.currentDay)
    (second : x.secondOfDay ≤ 86399) : x.Law := by
  have day (d : Nat) : x.day d = c.day d := by rw [Calendar.day, days, Calendar.day]
  exact
    { second := second
      current := fun d held => day d ▸ law.current d (current ▸ held)
      later := fun d inSeason after => day d ▸ law.later d inSeason (current ▸ after)
      ranges := fun d inSeason => day d ▸ law.ranges d inSeason
      ahead := fun d inSeason waits => by rw [day] at waits ⊢; exact law.ahead d inSeason waits }

/-- A record may be written anew where this moves its day neither into AHEAD nor out of it. -/
theorem Calendar.Law.setDay {d : Nat} {r : DayRecord} (law : c.Law) (inSeason : d ≤ 239) (legal : r.InRange)
    (state : r.state = .ahead ↔ (c.day d).state = .ahead) (empty : r.state = .ahead → r.closedLiftMinutes = 0) : (c.setDay d r).Law where
  second := law.second
  current k held := by
    obtain ⟨bound, opened⟩ := law.current k held
    by_cases same : k = d
    · subst same
      rw [Calendar.setDay_day_same r inSeason]
      exact ⟨bound, mt state.1 opened⟩
    · rw [Calendar.setDay_day_other r same]
      exact ⟨bound, opened⟩
  later k bound after := by
    have waits := law.later k bound after
    by_cases same : k = d
    · subst same
      rw [Calendar.setDay_day_same r inSeason]
      exact state.2 waits
    · rwa [Calendar.setDay_day_other r same]
  ranges k bound := by
    by_cases same : k = d
    · subst same
      rw [Calendar.setDay_day_same r inSeason]
      exact legal
    · rw [Calendar.setDay_day_other r same]
      exact law.ranges k bound
  ahead k bound := by
    by_cases same : k = d
    · subst same
      rw [Calendar.setDay_day_same r inSeason]
      exact empty
    · rw [Calendar.setDay_day_other r same]
      exact law.ahead k bound

/-- The day that opens is later than every day opened before, so those after it are still AHEAD (R31). -/
theorem Calendar.Law.openDay {n : Nat} (law : c.Law) (inSeason : n ≤ 239) (after : ∀ d, c.currentDay = some d → d < n) :
    (c.openDay n).Law where
  second := law.second
  current d held := by
    obtain rfl : n = d := Option.some.inj held
    exact ⟨inSeason, by simp [Calendar.openDay_day_same inSeason]⟩
  later d bound beyond := by
    have beyond : n < d := of_decide_eq_true beyond
    rw [Calendar.openDay_day_other beyond.ne']
    refine law.later d bound ?_
    cases current : c.currentDay with
    | none => rfl
    | some k => exact decide_eq_true ((after k current).trans beyond)
  ranges d bound := by
    by_cases same : d = n
    · subst same
      rw [Calendar.openDay_day_same inSeason]
      exact law.ranges d bound
    · rw [Calendar.openDay_day_other same]
      exact law.ranges d bound
  ahead d bound waits := by
    by_cases same : d = n
    · subst same
      simp [Calendar.openDay_day_same inSeason] at waits
    · rw [Calendar.openDay_day_other same] at waits ⊢
      exact law.ahead d bound waits

theorem Calendar.Law.change (law : c.Law) (h : c.Change x) : x.Law := by
  cases h with
  | aside days current second => exact law.congr days current (second ▸ law.second)
  | clock phase legal => exact law.congr rfl rfl legal
  | @minute d lifts current opened =>
    obtain ⟨inSeason, -⟩ := law.current d current
    have counted : c.count.Law := law.congr rfl rfl (nextSecond_le _)
    exact counted.setDay inSeason (DayRecord.InRange.gather (law.ranges d inSeason) lifts) Iff.rfl fun waits => by
      simp [DayRecord.gather, opened] at waits
  | opens inSeason after => exact law.openDay inSeason after
  | @closes d credit current opened legal =>
    obtain ⟨inSeason, -⟩ := law.current d current
    have written : (c.setDay d ((c.day d).closed credit)).Law :=
      law.setDay inSeason (DayRecord.InRange.closed (law.ranges d inSeason) legal) (by simp [opened]) (by simp)
    exact written.congr rfl rfl written.second
  | @put d dayClass f inSeason =>
    exact law.setDay inSeason (DayRecord.InRange.put (law.ranges d inSeason) dayClass f) (by simp)
      (by simpa using law.ahead d inSeason)

theorem step_calendarLaw {s t : State} (law : s.calendar.Law) (h : step s = .next t) : t.calendar.Law := by
  rcases step_cases h with rfl | ⟨c, rest, h⟩
  · exact law.change (.aside rfl rfl rfl)
  by_cases on : c = .powerOnReset
  · subst on
    cases h
    exact Calendar.powerOn_law
  · exact Calendar.Law.change (c := s.calendar) law (exec_calendar (s := { s with pending := rest }) h on)

end
end Sys2Proof.Machine

open Sys2Proof Sys2Proof.Machine

/-- Settles O13: every command makes one of the changes of the calendar, and each keeps its law. -/
theorem calendarLawKept : Obligations.CalendarLawKept := fun _ _ => step_calendarLaw
end

section
set_option Elab.async false
/-! A command at one lane or lift leaves every other lane and lift as it stands (R43, R82; log entry 10). -/
namespace Sys2Proof.Machine

/-! ### Shared operations that write one lane -/

section
variable (s : State) {k l : LaneNo} (other : l ≠ k)
include other

theorem State.dropFrame_lane_other : (s.dropFrame k).lane l = s.lane l := State.setLane_lane_other s _ other

theorem State.liftTakes_lane_other (i : LiftNo) (y : Lift) : (s.liftTakes k i y).lane l = s.lane l :=
  State.setLane_lane_other s _ other

theorem State.takeMode_lane_other (kind : RequestKind) (mode : ConfiguredMode) : (s.takeMode k kind mode).lane l = s.lane l := by
  unfold State.takeMode
  split
  · rfl
  · next taken =>
    obtain ⟨-, -, rfl⟩ := State.takeRequest_eq_some.1 taken
    simp [State.laneEvent_lane_other _ _ other]

theorem State.laneSettings_lane_other (r : Routed) : (s.laneSettings k r).lane l = s.lane l := by
  simp [State.laneSettings, State.setLane_lane_other _ _ other]

/-- The decision on a tap is taken at its own lane, whichever it is (R92, R99, R100). -/
theorem State.validate_lane_other (uid : Uid) : (s.validate k uid).lane l = s.lane l := by
  simp only [State.validate, State.validateServed, State.denyAt, State.grantAt]
  repeat' split
  all_goals simp [State.laneEvent_lane_other _ _ other]

end

section
variable (s : State) {i j : LiftNo} (other : j ≠ i)
include other

theorem State.dropAnswer_lift_other (l : LaneNo) : (s.dropAnswer l i).lift j = s.lift j := State.setLift_lift_other s _ other

theorem State.dropChange_lift_other (l : LaneNo) : (s.dropChange l i).lift j = s.lift j := State.setLift_lift_other s _ other

theorem State.liftTakes_lift_other (l : LaneNo) (y : Lift) : (s.liftTakes l i y).lift j = s.lift j := State.setLift_lift_other _ y other

end

/-! ### Each command -/

section
variable {c : Instr} {s : State}

/-- A command leaves every lane that it does not name. -/
theorem exec_lane_other {l : LaneNo} (other : mayWriteLane c l = false) : Answers (fun t => t.lane l = s.lane l) (exec c s) := by
  by_cases still : Part.lanes ∉ Part.writtenBy c
  · obtain ⟨t, answer, keeps⟩ := exec_keeps c s
    exact ⟨t, answer, State.lane_ext (keeps .lanes still) l⟩
  cases c
  case powerOnReset | stationReset | liftStationReset => cases other
  case noticeRaise source =>
    cases source
    case lane k =>
      have apart : l ≠ k := by rintro rfl; simp [mayWriteLane] at other
      simp only [exec, execNoticeRaise]
      split <;> simp [State.setRaises, State.setLane_lane_other _ _ apart]
    all_goals exact absurd (by simp [Part.writtenBy]) still
  case passageRecordTake owner =>
    cases owner
    case lane k =>
      have apart : l ≠ k := by rintro rfl; simp [mayWriteLane] at other
      simp only [exec, execPassageRecordTake]
      split
      · simp
      · simp only [answers_next]
        exact State.setLane_lane_other _ _ apart
    all_goals exact absurd (by simp [Part.writtenBy]) still
  case config owner =>
    cases owner
    case lane k =>
      have apart : l ≠ k := by rintro rfl; simp [mayWriteLane] at other
      simp only [exec, execConfig]
      split
      · simp
      · next taken =>
        obtain ⟨-, -, rfl⟩ := State.takeRequest_eq_some.1 taken
        simp [State.laneSettings_lane_other _ apart]
    all_goals exact absurd (by simp [Part.writtenBy]) still
  case tap k _ | key k _ | laneFrameDrop k _ | waitingTapTake k | laneStationReset k | presentLineChange k _
      | presenceDebounceExpiry k | latchSenseChange k _ | driveWindowExpiry k | releaseWatchExpiry k | showSend k _ | showSent k
      | rotation k _ | passageWindowExpiry k | holdTimeoutExpiry k | laneDayOpen k | laneDayClose k =>
    have apart : l ≠ k := Ne.symm (of_decide_eq_false other)
    simp only [exec, execTap, execKey, execLaneFrameDrop, execWaitingTapTake, execLaneStationReset, execPresentLineChange,
      execPresenceDebounceExpiry, execLatchSenseChange, execDriveWindowExpiry, execReleaseWatchExpiry, execShowSend, execShowSent,
      execRotation, execPassageWindowExpiry, execHoldTimeoutExpiry, execLaneDayOpen, execLaneDayClose]
    repeat' split
    all_goals simp [State.laneEvent_lane_other _ _ apart, State.setLane_lane_other _ _ apart, State.dropFrame_lane_other _ apart]
  case passStatusCancellation k =>
    have apart : l ≠ k := Ne.symm (of_decide_eq_false other)
    simp only [exec, execPassStatusCancellation]
    split
    · simp
    · exact .of (State.laneEvent_lane_other _ _ apart)
  case laneRelease k | laneLock k =>
    have apart : l ≠ k := Ne.symm (of_decide_eq_false other)
    exact .of (State.takeMode_lane_other s apart ..)
  case laneFaultClear k | laneConfig k =>
    have apart : l ≠ k := Ne.symm (of_decide_eq_false other)
    simp only [exec, execLaneFaultClear, execLaneConfig]
    split
    · simp
    · next taken =>
      obtain ⟨-, -, rfl⟩ := State.takeRequest_eq_some.1 taken
      repeat' split
      all_goals simp [State.laneEvent_lane_other _ _ apart]
  case validation k | passageCommit k | headRecord k | closingRowOperation k =>
    have apart : l ≠ k := Ne.symm (of_decide_eq_false other)
    simp only [exec, execValidation, execPassageCommit, execHeadRecord, execClosingRowOperation]
    repeat' split
    all_goals simp_all [State.takeRowOp_eq_some, State.validate_lane_other _ apart, State.dropRowOp_lane_other s apart]
  case placeRequest k _ | liftPassage k _ | release k _ | leave k _ | liftFreePassage k _ | liftIntrusion k _ =>
    have apart : l ≠ k := Ne.symm (of_decide_eq_false other)
    simp only [exec, execPlaceRequest, execLiftPassage, execRelease, execLeave, execLiftFreePassage, execLiftIntrusion]
    split
    · exact .of (State.liftTakes_lane_other s apart ..)
    · simp
  case place k _ | hold k _ | refusal k _ | inOperationChange k _ =>
    have apart : l ≠ k := Ne.symm (of_decide_eq_false other)
    simp only [exec, execPlace, execHold, execRefusal, execInOperationChange]
    split <;> simp [State.laneEvent_lane_other _ _ apart]
  all_goals exact absurd (by simp [Part.writtenBy]) still

/-- A command leaves every lift that it does not name. -/
theorem exec_lift_other {j : LiftNo} (other : mayWriteLift c j = false) : Answers (fun t => t.lift j = s.lift j) (exec c s) := by
  by_cases still : Part.lifts ∉ Part.writtenBy c
  · obtain ⟨t, answer, keeps⟩ := exec_keeps c s
    exact ⟨t, answer, State.lift_ext (keeps .lifts still) j⟩
  cases c
  case powerOnReset | stationReset => cases other
  case liftStationReset i =>
    have apart : j ≠ i := Ne.symm (of_decide_eq_false other)
    simp only [exec, execLiftStationReset]
    split
    · exact .of rfl
    · exact .of ((State.lift_ext rfl j).trans (State.setLift_lift_other s _ apart))
  case carrierPulse i _ | liftLineChange i _ _ | liftDebounceExpiry i =>
    have apart : j ≠ i := Ne.symm (of_decide_eq_false other)
    simp only [exec, execCarrierPulse, execLiftLineChange, execLiftDebounceExpiry]
    repeat' split
    all_goals simp [State.setLift_lift_other _ _ apart]
  case liftConfig i =>
    have apart : j ≠ i := Ne.symm (of_decide_eq_false other)
    simp only [exec, execLiftConfig]
    split
    · simp
    · next taken =>
      obtain ⟨-, -, rfl⟩ := State.takeRequest_eq_some.1 taken
      split <;> simp [State.setLift_lift_other _ _ apart]
  case placeRequest _ i | liftPassage _ i | release _ i | leave _ i | liftFreePassage _ i | liftIntrusion _ i =>
    have apart : j ≠ i := Ne.symm (of_decide_eq_false other)
    simp only [exec, execPlaceRequest, execLiftPassage, execRelease, execLeave, execLiftFreePassage, execLiftIntrusion]
    split
    · exact .of (State.liftTakes_lift_other s apart ..)
    · simp
  case place _ i | hold _ i | refusal _ i | inOperationChange _ i =>
    have apart : j ≠ i := Ne.symm (of_decide_eq_false other)
    simp only [exec, execPlace, execHold, execRefusal, execInOperationChange]
    split <;> simp [State.dropAnswer_lift_other _ apart, State.dropChange_lift_other _ apart]
  case noticeRaise source => cases source <;> exact absurd (by simp [Part.writtenBy]) still
  case passageRecordTake owner => cases owner <;> exact absurd (by simp [Part.writtenBy]) still
  case config owner => cases owner <;> exact absurd (by simp [Part.writtenBy]) still
  all_goals exact absurd (by simp [Part.writtenBy]) still

end
end Sys2Proof.Machine

open Sys2Proof Sys2Proof.Machine

/-- Settles O7: what every command writes of the lanes and the lifts stands at those it names. -/
theorem otherLanesAndLiftsKept : Obligations.OtherLanesAndLiftsKept := by
  intro c s t answer
  refine ⟨fun l other => ?_, fun i other => ?_⟩
  · simpa [answer] using exec_lane_other (s := s) other
  · simpa [answer] using exec_lift_other (s := s) other
end

section
set_option Elab.async false
/-! What one event of a lane answers: the derived state and its SHOW, a tap by the state, the mode, the faults and the mapping, the end of the event (R52 to R63,
R88 to R91, R100, R101). -/
namespace Sys2Proof.Machine

section
variable {env : LaneEnv} {x : Lane}

/-! ### What a lane hands on (R8, R87) -/

/-- A lift that is not discarding what the lane hands takes every message. -/
theorem Lane.tell_heard {i : LiftNo} (heard : env.discards[i] = false) (m : LaneMessage) :
    x.tell env i m = { x with toLifts := x.toLifts.set i (x.toLifts[i] ++ [m]) } := by
  cases m <;> simp [Lane.tell, heard]

theorem Lane.handRowOp_eq (op : RowOp) :
    x.handRowOp op = { x with rowOps := if x.resetsPending = 0 then x.rowOps ++ [op] else x.rowOps } := by
  unfold Lane.handRowOp
  split <;> rfl

/-! ### The effective state (R53, R54) -/

theorem Lane.derived_faulted (present : x.presence.debounced = true) (latched : x.actuationFail = true ∨ x.stuckOpen = true) :
    x.derived = .faulted := by
  simp [Lane.derived, present, latched]

/-- A lane that is present and holds no latch has the state that its key names, or at NORMAL the one that its mode, its day and its lift name (R53). -/
theorem Lane.derived_sound (present : x.presence.debounced = true) (driven : x.actuationFail = false) (closed : x.stuckOpen = false) :
    x.derived = (match x.keyPosition, x.configuredMode with
      | .free, _ => .overrideFree
      | .shut, _ => .overrideShut
      | .normal, .locked => .locked
      | .normal, .released => if x.dayOpen = false then .dayClosed else if x.servedLift = none then .noLift else .inService) := by
  simp only [Lane.derived, present, driven, closed, Option.isNone_iff_eq_none, Bool.not_eq_true']
  cases x.keyPosition <;> cases x.configuredMode <;> rfl

theorem Lane.rederive_unchanged (same : x.derived = x.effective) : x.rederive env = x := if_pos same

theorem Lane.rederive_changed (changed : x.derived ≠ x.effective) : x.rederive env =
    Lane.showState { (if x.effective = .inService then x.cancel env else x) with effective := x.derived } := if_neg changed

/-- A cancelled admission gives its place or its queue entry back to a lift that listens, and is closed (R121). -/
theorem Lane.cancel_heard {a : Admission} (held : x.admission = some a) (settled : x.resetsPending = 0) (heard : env.discards[a.lift] = false) :
    x.cancel env =
      { x with
        admission := none
        rowOps := x.rowOps ++ [.closing a.slot a.uid]
        toLifts := x.toLifts.set a.lift (x.toLifts[a.lift] ++
          (match a.phase with
           | some .unlocked => [.release a.request]
           | some .hold => [.leave a.request]
           | none => [])) } := by
  simp only [Lane.cancel, held, Lane.giveUp, Lane.endAdmission_eq]
  rcases a.phase with _ | _ | _
  · simp [settled]
  · simp [Lane.tell_heard heard, settled]
  · simp [Lane.tell_heard heard, settled]

/-! ### The mode, the faults and the key (R51, R52, R60) -/

theorem Lane.setMode_same {mode : ConfiguredMode} (same : x.configuredMode = mode) : x.setMode env mode = x := if_pos same

theorem Lane.setMode_other {mode : ConfiguredMode} (other : x.configuredMode ≠ mode) :
    x.setMode env mode = Lane.rederive env { x with configuredMode := mode } := if_neg other

theorem Lane.clearsFault_iff : x.clearsFault = true ↔ x.actuationFail = true ∨ (x.stuckOpen = true ∧ x.latchReleased = false) := by
  simp [Lane.clearsFault]

theorem Lane.keepsFault_iff : x.keepsFault = true ↔ x.stuckOpen = true ∧ x.latchReleased = true := by simp [Lane.keepsFault]

theorem Lane.clearFaults_cleared (clears : x.clearsFault = true) :
    x.clearFaults env = Lane.rederive env { x with actuationFail := false, stuckOpen := x.keepsFault } := if_pos clears

theorem Lane.clearFaults_kept (keeps : x.clearsFault = false) : x.clearFaults env = x := if_neg (by simp [keeps])

theorem Lane.turnKey_same {position : KeyPosition} (same : x.keyPosition = position) : x.turnKey env position = x := if_pos same

theorem Lane.turnKey_other {position : KeyPosition} (other : x.keyPosition ≠ position) :
    x.turnKey env position = Lane.rederive env { x with keyPosition := position } := if_neg other

/-! ### Taps (R88 to R91, R100, R101) -/

theorem Lane.takeTap_validates (inService : x.effective = .inService) (free : x.admission = none) (uid : Uid) :
    x.takeTap uid =
      { x with validationInFlight := true
               rowOps := if x.resetsPending = 0 then x.rowOps ++ [.validate uid] else x.rowOps } := by
  simp only [Lane.takeTap, inService, free, Lane.handRowOp_eq]

theorem Lane.takeTap_admitted {a : Admission} (inService : x.effective = .inService) (held : x.admission = some a) (uid : Uid) :
    x.takeTap uid = if a.uid = uid then x else x.deny .laneBusy := by
  simp only [Lane.takeTap, inService, held]

theorem Lane.takeTap_detached (absent : x.effective = .detached) (uid : Uid) : x.takeTap uid = x := by
  simp only [Lane.takeTap, absent]

theorem Lane.takeTap_denied {reason : DenyReason} (denies : x.effective.denial = some reason) (uid : Uid) :
    x.takeTap uid = x.deny reason := by
  unfold Lane.takeTap
  cases state : x.effective <;> simp_all [EffectiveState.denial]

/-- The signal of a denial (R101). -/
def Lane.denialSignal (x : Lane) (reason : DenyReason) : Signal :=
  if reason = .blocked then .seeOffice
  else if reason = .laneLocked ∧ x.effective = .overrideFree then .green
  else .red

/-- The heads remaining that a denial shows (R101). -/
def Lane.denialHeads (x : Lane) (reason : DenyReason) : Nat :=
  if reason = .laneBusy then (x.admission.map Admission.headsRemaining).getD 0 else 0

theorem Lane.showDenial_eq (reason : DenyReason) :
    x.showDenial reason = x.show (x.denialSignal reason) (.denied reason) (x.denialHeads reason) := by
  cases reason <;> simp [Lane.showDenial, Lane.denialSignal, Lane.denialHeads]

theorem Lane.deny_eq (reason : DenyReason) : x.deny reason =
    { x with
      counters := { x.counters with
        taps := bump 65535 x.counters.taps
        denials := x.counters.denials.set reason.index (bump 65535 x.counters.denials[reason.index]) }
      showSlot := some { signal := x.denialSignal reason, reason := .denied reason, heads := x.denialHeads reason }
      lastShown := some { signal := x.denialSignal reason, reason := .denied reason, heads := x.denialHeads reason } } := by
  rw [Lane.deny, Lane.showDenial_eq]
  rfl

theorem Lane.takeEmptied_taken {uid : Uid} {rest : List Uid} (oldest : x.emptiedTaps = uid :: rest)
    (goes : x.validationInFlight = false ∨ x.effective ≠ .inService ∨ x.admission ≠ none) :
    x.takeEmptied = Lane.takeTap { x with emptiedTaps := rest } uid := by
  simp only [Lane.takeEmptied, oldest]
  refine if_neg fun waits => ?_
  obtain ⟨flying, validates⟩ := Bool.and_eq_true_iff.1 waits
  obtain ⟨inService, free⟩ := (Lane.wouldValidate_iff _).1 validates
  rcases goes with idle | other | held
  · exact Bool.false_ne_true (idle.symm.trans flying)
  · exact other inService
  · exact held free

theorem Lane.takeEmptied_waits {uid : Uid} {rest : List Uid} (oldest : x.emptiedTaps = uid :: rest) (flying : x.validationInFlight = true)
    (inService : x.effective = .inService) (free : x.admission = none) :
    x.takeEmptied = { x with emptiedTaps := rest, waitingTap := some (x.waitingTap.getD uid) } := by
  simp [Lane.takeEmptied, oldest, Lane.wouldValidate, flying, inService, free]

/-! ### The end of an event (R56 to R58) -/

theorem Lane.wantsUnlock_iff : x.wantsUnlock = true ↔ (∃ a, x.admission = some a ∧ a.phase = some .unlocked) ∨ x.effective = .overrideFree := by
  simp [Lane.wantsUnlock, Option.any_eq_true]

theorem Lane.watched_iff : x.watched = true ↔
    x.wantsUnlock = false ∧ x.presence.debounced = true ∧ x.stuckOpen = false ∧ x.latchReleased = true := by
  simp [Lane.watched, and_assoc]

theorem Lane.driveWindowAfter_eq : x.driveWindowAfter =
    if x.wantsUnlock = true ∧ x.latchReleased = false then (if x.unlock = true then x.driveWindow else some 250) else none := by
  unfold Lane.driveWindowAfter
  cases x.wantsUnlock <;> cases x.latchReleased <;> rfl

theorem Lane.releaseWatchAfter_eq : x.releaseWatchAfter =
    if x.wantsUnlock = false ∧ x.presence.debounced = true ∧ x.stuckOpen = false ∧ x.latchReleased = true
    then some (x.releaseWatch.getD 250) else none := by
  simp only [Lane.releaseWatchAfter, Lane.watched_iff]

end
end Sys2Proof.Machine

open Sys2Proof Sys2Proof.Machine

/-- Settles O21: the conditions of R53 in their order, and the SHOW of a state taken, an admission ended before it. -/
theorem rederivation : Obligations.Rederivation := by
  refine ⟨fun env x => Lane.rederive_unchanged, fun env x changed idle => ?_, fun env x a changed inService held settled heard => ?_, ?_, fun x => ?_⟩
  · have kept : (if x.effective = .inService then x.cancel env else x) = x := by
      split
      · next inService =>
        rw [Lane.cancel, idle.resolve_left (not_not.2 inService)]
      · rfl
    rw [Lane.rederive_changed changed, kept]
    rfl
  · rw [Lane.rederive_changed changed, if_pos inService, Lane.cancel_heard held settled heard]
    rfl
  · decide
  · refine ⟨Lane.derived_detached, fun present => ⟨Lane.derived_faulted present, fun driven closed => ?_⟩⟩
    rw [Lane.derived_sound present driven closed]
    refine ⟨fun free => by simp [free], fun shut => by simp [shut], fun normal => ⟨fun locked => by simp [normal, locked], fun released => ?_⟩⟩
    cases served : x.servedLift <;> simp +contextual [normal, released]

/-- Settles O47: a tap by the state of the lane, its denial by its signal and its heads, and the tap emptied from the waiting slot. -/
theorem tapsTaken : Obligations.TapsTaken := by
  refine ⟨fun x uid => ⟨fun inService free => Lane.takeTap_validates inService free uid, fun a inService held same => ?_,
    fun a inService held other => ?_, fun absent => Lane.takeTap_detached absent uid, fun state => Lane.takeTap_denied (by rw [state]; rfl) uid,
    fun state => Lane.takeTap_denied ?_ uid, fun state => Lane.takeTap_denied (by rw [state]; rfl) uid,
    fun state => Lane.takeTap_denied (by rw [state]; rfl) uid, fun state => Lane.takeTap_denied (by rw [state]; rfl) uid⟩,
    fun x reason => ⟨x.denialSignal reason, x.denialHeads reason, Lane.deny_eq reason, ?_⟩, fun s l uid rest oldest => ?_⟩
  · rw [Lane.takeTap_admitted inService held, if_pos same]
  · rw [Lane.takeTap_admitted inService held, if_neg other]
  · rcases state with free | locked
    · rw [free]; rfl
    · rw [locked]; rfl
  · unfold Lane.denialSignal Lane.denialHeads
    refine ⟨fun blocked => if_pos blocked, fun locked free => by simp [locked, free], fun passes shut => ?_, fun other => if_neg other,
      fun a busy held => by simp [busy, held, Admission.headsRemaining]⟩
    rw [if_neg passes, if_neg fun ⟨locked, free⟩ => shut.elim (· locked) (· free)]
  · have event : exec (.waitingTapTake l) s = .next (s.setLane l (s.lane l).takeEmptied.settle) := if_neg (by simp [oldest])
    refine ⟨fun goes => ?_, fun flying inService free => ?_⟩
    · rw [event, Lane.takeEmptied_taken oldest goes]
    · rw [event, Lane.takeEmptied_waits oldest flying inService free]
end

section
set_option Elab.async false
/-! The frames of the lane link: which bytes are a TAP or a KEY, what a lane makes of a frame, and how a SHOW is sent (R47, R49 to R51, R88, R198). -/
namespace Sys2Proof.Machine

/-! ### The check byte (R49, R198) -/

theorem byteSum_eq_sum (bytes : List Byte) : byteSum bytes = bytes.sum := List.sum_eq_foldl.symm

theorem byteSum_cons (b : Byte) (bytes : List Byte) : byteSum (b :: bytes) = b + byteSum bytes := by
  rw [byteSum_eq_sum, byteSum_eq_sum, List.sum_cons]

theorem byteSum_append_singleton (bytes : List Byte) (b : Byte) : byteSum (bytes ++ [b]) = byteSum bytes + b :=
  List.foldl_concat ..

/-- Every frame that the part builds passes the check of R49. -/
theorem byteSum_laneFrame (kind : Byte) (body : List Byte) : byteSum (laneFrame kind body) = 0 := by
  rw [laneFrame, byteSum_append_singleton, add_neg_cancel]

/-- The check byte is the one that the other bytes leave. -/
theorem eq_neg_of_byteSum {opened : List Byte} {check : Byte} (adds : byteSum (opened ++ [check]) = 0) : check = -byteSum opened := by
  rw [byteSum_append_singleton] at adds
  exact (neg_eq_of_add_eq_zero_right adds).symm

/-! ### The bytes of a UID (R198) -/

theorem toNat_append_byte {w : Nat} (x : BitVec w) (b : Byte) : (x ++ b).toNat = x.toNat * 256 + b.toNat := by
  rw [BitVec.toNat_append, ← Nat.shiftLeft_add_eq_or_of_lt b.isLt, Nat.shiftLeft_eq]

theorem toNat_appended (b0 b1 b2 b3 b4 b5 b6 b7 : Byte) :
    (b0 ++ b1 ++ b2 ++ b3 ++ b4 ++ b5 ++ b6 ++ b7).toNat = numberOf [b0, b1, b2, b3, b4, b5, b6, b7] := by
  simp [toNat_append_byte, numberOf]

theorem be_add_mul (n k len : Nat) : be (k * 256 ^ len + n) len = be n len := by
  induction len generalizing k with
  | zero => rfl
  | succ len ih =>
    have shift : k * 256 ^ (len + 1) + n = k * 256 * 256 ^ len + n := by ring
    have byte : (k * 256 * 256 ^ len + n) / 256 ^ len = 256 * k + n / 256 ^ len := by
      rw [Nat.add_comm, Nat.add_mul_div_right _ _ (by positivity)]
      ring
    rw [shift, be, be, ih, byte]
    congr 1
    apply BitVec.eq_of_toNat_eq
    simp [Nat.add_mod]

theorem numberOf_lt (bytes : List Byte) : numberOf bytes < 256 ^ bytes.length := by
  induction bytes with
  | nil => decide
  | cons b rest ih =>
    rw [numberOf_cons, List.length_cons, Nat.pow_succ]
    have := b.isLt
    nlinarith

/-- Bytes are those of the number that they spell. -/
theorem be_numberOf (bytes : List Byte) : be (numberOf bytes) bytes.length = bytes := by
  induction bytes with
  | nil => rfl
  | cons b rest ih =>
    have byte : (b.toNat * 256 ^ rest.length + numberOf rest) / 256 ^ rest.length = b.toNat := by
      rw [Nat.add_comm, Nat.add_mul_div_right _ _ (by positivity), Nat.div_eq_of_lt (numberOf_lt rest), Nat.zero_add]
    rw [numberOf_cons, List.length_cons, be, byte, be_add_mul, ih, BitVec.ofNat_toNat, BitVec.setWidth_eq]

/-! ### Good frames (R49) -/

theorem tapFrame_eq (uid : Uid) : tapFrame uid = [1, 8] ++ be uid.toNat 8 ++ [-byteSum (1 :: 8 :: be uid.toNat 8)] := rfl

theorem keyFrame_eq (position : KeyPosition) : keyFrame position = [2, 1, position.code, -byteSum [2, 1, position.code]] := rfl

theorem parseLaneFrame_tapFrame (uid : Uid) : parseLaneFrame (tapFrame uid) = .tap uid := by
  have spelt : numberOf (be uid.toNat 8) = uid.toNat := by rw [numberOf_be]; exact Nat.mod_eq_of_lt uid.isLt
  have adds : byteSum (tapFrame uid) = 0 := byteSum_laneFrame 1 _
  exact (if_neg (not_not.2 adds)).trans (congrArg LaneFrame.tap (BitVec.eq_of_toNat_eq ((toNat_appended ..).trans spelt)))

theorem parseLaneFrame_keyFrame (position : KeyPosition) : parseLaneFrame (keyFrame position) = .key position := by
  cases position <;> rfl

/-- A frame is bad unless it is the frame of a tap or of a key (R49). -/
theorem parseLaneFrame_bad {frame : List Byte} (untapped : ∀ uid, frame ≠ tapFrame uid) (unkeyed : ∀ position, frame ≠ keyFrame position) :
    parseLaneFrame frame = .bad := by
  have keyed {position : KeyPosition} {check : Byte} (adds : byteSum [2, 1, position.code, check] = 0) :
      [2, 1, position.code, check] = keyFrame position := by
    rw [keyFrame_eq, eq_neg_of_byteSum (opened := [2, 1, position.code]) adds]
  unfold parseLaneFrame
  split
  · rfl
  · next adds =>
    have adds := not_not.1 adds
    split
    · next b0 b1 b2 b3 b4 b5 b6 b7 check _ =>
      refine absurd ?_ (untapped (b0 ++ b1 ++ b2 ++ b3 ++ b4 ++ b5 ++ b6 ++ b7))
      have bytes : be (numberOf [b0, b1, b2, b3, b4, b5, b6, b7]) 8 = _ := be_numberOf _
      rw [tapFrame_eq, toNat_appended, bytes, eq_neg_of_byteSum (opened := [1, 8, b0, b1, b2, b3, b4, b5, b6, b7]) adds]
      rfl
    · exact absurd (keyed (position := .normal) adds) (unkeyed _)
    · exact absurd (keyed (position := .free) adds) (unkeyed _)
    · exact absurd (keyed (position := .shut) adds) (unkeyed _)
    · rfl

/-! ### What a lane makes of a frame (R47, R49 to R51, R88) -/

section
variable {s : State} {l : LaneNo} {frame : List Byte}

theorem Lane.hears_absent {x : Lane} (absent : x.presence.debounced = false) : x.hears frame = none := by simp [Lane.hears, absent]

theorem Lane.hears_bad {x : Lane} (present : x.presence.debounced = true) (damaged : x.sending ≠ none ∨ parseLaneFrame frame = .bad) :
    x.hears frame = some .bad := by
  simp only [Lane.hears, present, Bool.not_true, Bool.false_eq_true, if_false]
  split
  · rfl
  · next quiet => rw [damaged.resolve_left (by simpa using quiet)]

theorem Lane.hears_whole {x : Lane} (present : x.presence.debounced = true) (quiet : x.sending = none) :
    x.hears frame = some (parseLaneFrame frame) := by simp [Lane.hears, present, quiet]

theorem exec_tap {uid : Uid} (heard : (s.lane l).hears frame = some (.tap uid)) :
    exec (.tap l frame) s = .next (s.setLane l ((s.lane l).tapArrives uid).settle) := by
  simp only [exec, execTap, heard]
  rfl

theorem exec_key {position : KeyPosition} (heard : (s.lane l).hears frame = some (.key position)) :
    exec (.key l frame) s = .next (s.setLane l ((s.lane l).turnKey (s.laneEnv l) position).settle) := by
  simp only [exec, execKey, heard]
  rfl

theorem exec_frame_bad (heard : (s.lane l).hears frame = some .bad) :
    exec (.tap l frame) s = .next (s.dropFrame l) ∧ exec (.key l frame) s = .next (s.dropFrame l)
      ∧ exec (.laneFrameDrop l frame) s = .next (s.dropFrame l) := by
  simp only [exec, execTap, execKey, execLaneFrameDrop, heard, and_self]

theorem exec_frame_ignored (heard : (s.lane l).hears frame = none) :
    exec (.tap l frame) s = .next s ∧ exec (.key l frame) s = .next s ∧ exec (.laneFrameDrop l frame) s = .next s := by
  simp only [exec, execTap, execKey, execLaneFrameDrop, heard, and_self]

end
end Sys2Proof.Machine

open Sys2Proof Sys2Proof.Machine

/-- Settles O46: a good frame is that of a tap or of a key, whose bytes the other frames are not; and what the lane hears of each. -/
theorem laneFramesTaken : Obligations.LaneFramesTaken := by
  refine ⟨parseLaneFrame_tapFrame, parseLaneFrame_keyFrame, rfl, byteSum_cons,
    fun uid => ⟨_, tapFrame_eq uid, byteSum_laneFrame 1 _⟩, fun position => ⟨_, keyFrame_eq position, byteSum_laneFrame 2 _⟩,
    fun frame adds => if_pos adds, fun frame short => ?_, fun kind length rest notTap notKey => ?_, fun length rest shape => ?_,
    fun length rest shape => ?_, fun position check beyond => ?_, fun frame => parseLaneFrame_bad, ?_⟩
  · refine parseLaneFrame_bad ?_ ?_
    · rintro uid rfl
      simp [tapFrame_eq] at short
    · rintro position rfl
      simp [keyFrame_eq] at short
  · refine parseLaneFrame_bad (fun uid same => ?_) (fun position same => ?_)
    · exact notTap (List.cons.inj same).1
    · exact notKey (List.cons.inj same).1
  · refine parseLaneFrame_bad (fun uid same => ?_) (fun position same => ?_)
    · rw [tapFrame_eq] at same
      obtain ⟨rfl, rfl⟩ : length = 8 ∧ rest = be uid.toNat 8 ++ [_] := by simpa using same
      simp at shape
    · exact absurd (List.cons.inj same).1 (by decide)
  · refine parseLaneFrame_bad (fun uid same => ?_) (fun position same => ?_)
    · exact absurd (List.cons.inj same).1 (by decide)
    · rw [keyFrame_eq] at same
      obtain ⟨rfl, rfl⟩ : length = 1 ∧ rest = [position.code, _] := by simpa using same
      simp at shape
  · refine parseLaneFrame_bad (fun uid same => ?_) (fun named same => ?_)
    · exact absurd (List.cons.inj same).1 (by decide)
    · rw [keyFrame_eq] at same
      obtain ⟨rfl, -⟩ : position = named.code ∧ check = _ := by simpa using same
      cases named <;> exact absurd beyond (by decide)
  refine ⟨fun s l frame absent => exec_frame_ignored (Lane.hears_absent absent),
    fun s l frame present damaged => ⟨_, rfl, exec_frame_bad (Lane.hears_bad present damaged)⟩,
    fun s l frame uid present quiet tapped => ?_, fun s l frame position present quiet keyed => ?_, fun s l x shown quiet => ?_,
    fun s l frame _ => rfl, by decide, by decide, by decide, by decide, by decide⟩
  · have event := exec_tap (tapped ▸ Lane.hears_whole (frame := frame) present quiet)
    exact ⟨fun flying => by rw [event, Lane.tapArrives, if_pos flying],
      fun idle => by rw [event, Lane.tapArrives, if_neg (by simp [idle])]⟩
  · have event := exec_key (keyed ▸ Lane.hears_whole (frame := frame) present quiet)
    exact ⟨fun same => by rw [event, Lane.turnKey_same same], fun other => by rw [event, Lane.turnKey_other other]⟩
  · refine ⟨rfl, showFrame x, _, rfl, byteSum_laneFrame 0x81 _, ?_⟩
    simp [exec, execShowSend, shown, quiet]
end

section
set_option Elab.async false
/-! What a lane answers to its requests, to the changes of its lines, to the expiry of its windows and to a rotation (R45 to R48, R52, R56 to R61, R63, R111, R116,
R123, R124). -/
namespace Sys2Proof.Machine

/-! ### LANE_RELEASE, LANE_LOCK and LANE_FAULT_CLEAR (R52, R60) -/

section
variable {s : State} {l : LaneNo} {r : Routed}

theorem exec_laneRelease (h : s.Routes (.lane l) .laneRelease r) : exec (.laneRelease l) s =
    .next (((s.dropNextFor (.lane l)).setLane l ((s.lane l).setMode (s.laneEnv l) .released).settle).jointAnswer r.place
      (decide ((s.lane l).configuredMode ≠ .released)) false id) := by
  simp only [exec, execLaneRelease, State.takeMode, h.take]
  rfl

theorem exec_laneLock (h : s.Routes (.lane l) .laneLock r) : exec (.laneLock l) s =
    .next (((s.dropNextFor (.lane l)).setLane l ((s.lane l).setMode (s.laneEnv l) .locked).settle).jointAnswer r.place
      (decide ((s.lane l).configuredMode ≠ .locked)) false id) := by
  simp only [exec, execLaneLock, State.takeMode, h.take]
  rfl

theorem exec_laneFaultClear (h : s.Routes (.lane l) .laneFaultClear r) : exec (.laneFaultClear l) s =
    .next (((s.dropNextFor (.lane l)).setLane l ((s.lane l).clearFaults (s.laneEnv l)).settle).jointAnswer r.place
      (s.lane l).clearsFault (s.lane l).keepsFault id) := by
  simp only [exec, execLaneFaultClear, h.take]
  rfl

/-! ### LANE_CONFIG (R63) -/

theorem LaneForm.mapping_refused {f : LaneForm} (bad : 3 < f.primary ∨ 1 < f.secondary.presence
    ∨ (f.secondary.presence = 1 ∧ (3 < f.secondary.value ∨ f.secondary.value = f.primary))) : f.mapping = none := by
  unfold LaneForm.mapping
  split
  · next primary =>
    rcases bad with beyond | flag | ⟨present, value⟩
    · omega
    · rw [if_pos (by simpa [isFlag] using flag)]
    · have given : f.secondary.get = some f.secondary.value := if_pos present
      rw [if_neg (by simp [isFlag, present]), given]
      dsimp only
      split
      · exact if_pos (value.resolve_left (by omega))
      · rfl
  · rfl

theorem LaneForm.mapping_taken {f : LaneForm} {first : LiftNo} {second : Option LiftNo} (primary : f.primary = first.val)
    (flag : f.secondary.presence ≤ 1) (absent : f.secondary.presence = 0 ↔ second = none)
    (value : ∀ i, second = some i → f.secondary.value = i.val) (distinct : second ≠ some first) : f.mapping = some (first, second) := by
  unfold LaneForm.mapping
  rw [dif_pos (primary ▸ first.isLt), if_neg (by simpa [isFlag] using flag)]
  cases second with
  | none =>
    have missing : f.secondary.get = none := if_neg (by simp [absent.2 rfl])
    rw [missing]
    simp [primary]
  | some i =>
    have given : f.secondary.get = some i.val := by
      have present : f.secondary.presence = 1 := by
        have := mt absent.1 (Option.some_ne_none i)
        omega
      rw [OptionalField.get, if_pos present, value i rfl]
    have other : i.val ≠ first.val := fun same => distinct (by rw [Fin.ext same])
    rw [given]
    simp [other, primary]

theorem exec_laneConfig_refused (h : s.Routes (.lane l) .laneConfig r) (bad : (laneForm r.body).mapping = none) :
    exec (.laneConfig l) s = .next ((s.dropNextFor (.lane l)).answer r.place .badField []) := by
  simp only [exec, execLaneConfig, h.take, bad]

theorem exec_laneConfig_taken {first : LiftNo} {second : Option LiftNo} (h : s.Routes (.lane l) .laneConfig r)
    (legal : (laneForm r.body).mapping = some (first, second)) : exec (.laneConfig l) s =
      if (s.lane l).primaryLift = first ∧ (s.lane l).secondaryLift = second then
        .next ((s.dropNextFor (.lane l)).answer r.place .okNoChange [])
      else .next (((s.dropNextFor (.lane l)).setLane l ((s.lane l).remap (s.laneEnv l) first second).settle).answer r.place .ok []) := by
  simp only [exec, execLaneConfig, h.take, legal]
  rfl

/-! ### Rotations (R45, R61) -/

theorem State.setLane_setLane (s : State) (l : LaneNo) (x y : Lane) : (s.setLane l x).setLane l y = s.setLane l y := by
  simp [State.setLane]

/-- What a lane reads of the lifts follows the station resets that it has still to take (R87). -/
theorem State.setLane_laneEnv {x : Lane} (same : x.resetsPending = (s.lane l).resetsPending) : (s.setLane l x).laneEnv l = s.laneEnv l := by
  simp only [State.laneEnv, State.setLane_lane_same, same]
  rfl

theorem exec_rotation_uncounted {active : Bool} (uncounted : (s.lane l).rotationLine.counts active = false) : exec (.rotation l active) s =
    .next (s.setLane l { s.lane l with rotationLine := (s.lane l).rotationLine.takes active }) := if_neg (by simp [uncounted])

theorem exec_rotation_counted {active : Bool} (counted : (s.lane l).rotationLine.counts active = true) : exec (.rotation l active) s =
    .next (s.setLane l
      (Lane.rotates (s.laneEnv l) l { s.lane l with rotationLine := (s.lane l).rotationLine.takes active }).settle) := by
  refine (if_pos counted).trans ?_
  rw [State.laneEvent, State.setLane_lane_same, State.setLane_setLane, State.setLane_laneEnv]
  rfl

end

theorem PulseLine.takes_other {p : PulseLine} {active : Bool} (changes : active ≠ p.active) :
    p.takes active = { active := active, inactiveMs := 0 } := if_neg changes

theorem PulseLine.counts_iff {p : PulseLine} {active : Bool} :
    p.counts active = true ↔ active = true ∧ p.active = false ∧ 20 ≤ p.inactiveMs := by
  simp [PulseLine.counts, and_assoc]

/-! ### Heads, free passages and intrusions (R61, R111, R116, R123, R124) -/

/-- What a lane has handed the lifts once it has handed one of them these messages, unless that lift discards them (R87). -/
def LaneEnv.told (env : LaneEnv) (handed : Vector (List LaneMessage) 4) (i : LiftNo) (ms : List LaneMessage) : Vector (List LaneMessage) 4 :=
  if env.discards[i] = true then handed else handed.set i (handed[i] ++ ms)

theorem LaneEnv.told_told (env : LaneEnv) (handed : Vector (List LaneMessage) 4) (i : LiftNo) (ms ns : List LaneMessage) :
    env.told (env.told handed i ms) i ns = env.told handed i (ms ++ ns) := by
  unfold LaneEnv.told
  split <;> simp

theorem State.messagesWith_eq (s : State) (l : LaneNo) (i : LiftNo) (ms : List LaneMessage) :
    s.messagesWith l i ms = (s.laneEnv l).told (s.lane l).toLifts i ms := by
  simp only [State.messagesWith, LaneEnv.told, State.laneEnv_discards, decide_eq_true_eq]

section
variable {env : LaneEnv} {x : Lane} {l : LaneNo} {a : Admission}

theorem Lane.tell_passage (i : LiftNo) (n : RequestNo) :
    x.tell env i (.passage n) = { x with toLifts := env.told x.toLifts i [.passage n] } := by
  unfold Lane.tell LaneEnv.told
  dsimp only
  split <;> rfl

theorem Lane.tell_placeRequest (i : LiftNo) (n : RequestNo) :
    x.tell env i (.placeRequest n) = { x with toLifts := env.told x.toLifts i [.placeRequest n] } := by
  unfold Lane.tell LaneEnv.told
  dsimp only
  split <;> rfl

theorem Lane.rotates_detached (absent : x.effective = .detached) : x.rotates env l = x := if_pos absent

theorem Lane.rotates_passes (attached : x.effective ≠ .detached) (held : x.admission = some a) (unlocked : a.phase = some .unlocked) :
    x.rotates env l = x.headPasses env a := by
  simp only [Lane.rotates, held]
  rw [if_neg attached, if_pos unlocked]

/-- A rotation without an UNLOCKED admission (R61). -/
theorem Lane.rotates_unadmitted (attached : x.effective ≠ .detached) (locked : ∀ a, x.admission = some a → a.phase ≠ some .unlocked) :
    x.rotates env l = if x.effective = .overrideFree then x.freePassage env l else x.intrusion env l := by
  simp only [Lane.rotates]
  rw [if_neg attached]
  split
  · next a held => exact if_neg (locked a held)
  · rfl

theorem Lane.headPasses_next (more : a.headsPassed + 1 < a.headsTotal) : x.headPasses env a =
    { x with
      rowOps := if x.resetsPending = 0 then x.rowOps ++ [.passage a.slot a.uid (a.headsPassed + 1) a.lift env.stamp] else x.rowOps
      toLifts := env.told x.toLifts a.lift [.passage a.request, .placeRequest (x.lastRequest + 1)]
      lastRequest := x.lastRequest + 1
      admission := some { a with headsPassed := a.headsPassed + 1, request := x.lastRequest + 1, phase := none, deadline := none,
                                 holdStart := none } } := by
  simp only [Lane.headPasses, more, if_true, Lane.requestPlace, Lane.handRowOp_eq, Lane.tell_passage, Lane.tell_placeRequest,
    LaneEnv.told_told, List.cons_append, List.nil_append]

theorem Lane.headPasses_last (last : a.headsTotal ≤ a.headsPassed + 1) : x.headPasses env a =
    { x with
      rowOps := if x.resetsPending = 0 then
          x.rowOps ++ [.passage a.slot a.uid (a.headsPassed + 1) a.lift env.stamp, .closing a.slot a.uid] else x.rowOps
      toLifts := env.told x.toLifts a.lift [.passage a.request]
      admission := none
      showSlot := some { signal := .dark, reason := .complete, heads := 0 }
      lastShown := some { signal := .dark, reason := .complete, heads := 0 } } := by
  simp only [Lane.headPasses, Nat.not_lt.2 last, if_false, Lane.endAdmission_eq, Lane.handRowOp_eq, Lane.tell_passage, Lane.show]
  by_cases settled : x.resetsPending = 0 <;> simp [settled]

/-- The served lift is told of a free passage or an intrusion, and discards neither (R61, R87). -/
theorem Lane.tellServed_eq {m : LaneMessage} (kind : m = .freePassage ∨ m = .intrusion) :
    x.tellServed env m = { x with toLifts := x.servedTold m } := by
  unfold Lane.tellServed Lane.servedTold
  split
  · rcases kind with rfl | rfl <;> rfl
  · rfl

theorem Lane.freePassage_eq : x.freePassage env l =
    { x with
      counters := { x.counters with freePassages := bump 65535 x.counters.freePassages }
      toLifts := x.servedTold .freePassage
      records := x.records ++ [rotationRecord .free l x.servedLift env.stamp] } := by
  rw [Lane.freePassage, Lane.tellServed_eq (.inl rfl)]
  rfl

theorem Lane.intrusion_eq : x.intrusion env l =
    { x with
      counters := { x.counters with intrusions := bump 65535 x.counters.intrusions }
      toLifts := x.servedTold .intrusion
      records := x.records ++ [rotationRecord .intrusion l x.servedLift env.stamp] } := by
  rw [Lane.intrusion, Lane.tellServed_eq (.inr rfl)]
  rfl

end
end Sys2Proof.Machine

open Sys2Proof Sys2Proof.Machine

/-- Settles O44: each request by whether it changes the lane, and LANE_CONFIG by whether its mapping is legal. -/
theorem laneRequestsTaken : Obligations.LaneRequestsTaken := by
  refine ⟨fun _ => rfl, fun s l r asks => ⟨fun released => ?_, fun locked => ?_⟩, fun s l r asks => ⟨fun locked => ?_, fun released => ?_⟩,
    fun s l r asks => ⟨fun clears => ⟨(s.lane l).keepsFault, Lane.keepsFault_iff, ?_⟩, fun driven closed => ?_⟩, ?_⟩
  · rw [exec_laneRelease asks, Lane.setMode_same released, released]
    rfl
  · rw [exec_laneRelease asks, Lane.setMode_other (by simp [locked]), locked]
    rfl
  · rw [exec_laneLock asks, Lane.setMode_same locked, locked]
    rfl
  · rw [exec_laneLock asks, Lane.setMode_other (by simp [released]), released]
    rfl
  · have clears := Lane.clearsFault_iff.2 clears
    rw [exec_laneFaultClear asks, Lane.clearFaults_cleared clears, clears]
  · have keeps : (s.lane l).clearsFault = false := by
      rcases closed with closed | released <;> simp [Lane.clearsFault, *]
    have held : (s.lane l).keepsFault = (s.lane l).stuckOpen := by
      rcases closed with closed | released <;> simp [Lane.keepsFault, *]
    rw [exec_laneFaultClear asks, Lane.clearFaults_kept keeps, keeps, held]
  · rintro s l r f asks rfl
    refine ⟨fun bad => exec_laneConfig_refused asks (LaneForm.mapping_refused bad), ?_⟩
    intro first second primary flag absent value distinct
    rw [exec_laneConfig_taken asks (LaneForm.mapping_taken primary flag absent value distinct)]
    exact ⟨fun sameFirst sameSecond => if_pos ⟨sameFirst, sameSecond⟩,
      fun changes => if_neg fun ⟨sameFirst, sameSecond⟩ => changes.elim (· sameFirst) (· sameSecond)⟩

/-- Settles O45: the end of every event by whether UNLOCK is wanted, and each line and each window by its own event. -/
theorem laneLinesAndWindows : Obligations.LaneLinesAndWindows := by
  refine ⟨fun x => ⟨x.wantsUnlock, x.driveWindowAfter, x.releaseWatchAfter, rfl, Lane.wantsUnlock_iff, ?_⟩, fun s l present changes => ?_,
    fun s l due present => ?_, fun s l due absent => ⟨_, rfl, ?_⟩, fun s l released changes => ?_, fun s l due driven held => ⟨_, rfl, ?_⟩,
    fun s l due watched => ⟨_, rfl, ?_⟩⟩
  · rw [Lane.driveWindowAfter_eq, Lane.releaseWatchAfter_eq]
    refine ⟨fun ends => if_neg ?_, fun wants latched fresh => ?_, fun wants latched driven => ?_, fun stops => if_neg ?_,
      fun unwanted present closed released => ?_⟩
    · rintro ⟨wants, latched⟩
      simp [wants, latched] at ends
    · simp [wants, latched, fresh]
    · simp [wants, latched, driven]
    · rintro ⟨unwanted, present, closed, released⟩
      simp [unwanted, present, closed, released] at stops
    · rw [if_pos ⟨unwanted, present, closed, released⟩]
      cases x.releaseWatch <;> simp
  · simp only [exec, execPresentLineChange, Debounce.lineTakes, if_neg changes]
  · simp only [exec, execPresenceDebounceExpiry, (Debounce.isDue_iff _).2 due, if_true, State.laneEvent, Debounce.settled, present]
  · simp only [exec, execPresenceDebounceExpiry, (Debounce.isDue_iff _).2 due, if_true, State.laneEvent, Debounce.settled, absent]
    rfl
  · refine (if_neg changes).trans ?_
    rw [State.laneEvent, Lane.settle, Lane.driveWindowAfter_eq, Lane.releaseWatchAfter_eq]
    rfl
  · exact if_pos (by simp [due, driven, held])
  · exact if_pos (by simp [due, watched])

/-- Settles O49: what the line's level makes of the 20 ms measure, and the rotation by the admission and the state that it finds. -/
theorem rotationsTaken : Obligations.RotationsTaken := by
  refine ⟨fun s l active changes short => ?_, ?_⟩
  · have uncounted : (s.lane l).rotationLine.counts active = false := by
      rw [← Bool.not_eq_true, PulseLine.counts_iff]
      rintro ⟨rises, -, long⟩
      rcases short with falls | short
      · exact Bool.false_ne_true (falls.symm.trans rises)
      · omega
    rw [exec_rotation_uncounted uncounted, PulseLine.takes_other changes]
  · intro s l x idle long risen
    have event : exec (.rotation l true) s = .next (s.setLane l (x.rotates (s.laneEnv l) l).settle) := by
      rw [exec_rotation_counted (PulseLine.counts_iff.2 ⟨rfl, idle, long⟩), PulseLine.takes_other (by simp [idle]), risen]
    rw [event]
    refine ⟨fun absent => by rw [Lane.rotates_detached absent], fun a attached held unlocked => ⟨fun more => ?_, fun last => ?_⟩,
      fun free locked => ?_, fun attached closed locked => ?_⟩
    · rw [Lane.rotates_passes attached held unlocked, Lane.headPasses_next more, State.messagesWith_eq]
      subst risen
      rfl
    · rw [Lane.rotates_passes attached held unlocked, Lane.headPasses_last last, State.messagesWith_eq]
      subst risen
      rfl
    · rw [Lane.rotates_unadmitted (by simp [free]) locked, if_pos free, Lane.freePassage_eq]
      rfl
    · rw [Lane.rotates_unadmitted attached locked, if_neg closed, Lane.intrusion_eq]
      rfl
end

section
set_option Elab.async false
/-! What one event of a lift answers: the room arbiter, a change of operation, LIFT_CONFIG and the carrier pulse (R69 to R72, R76 to R85). -/
namespace Sys2Proof.Machine

/-! ### Answers to the lanes -/

theorem vector_set_get {α : Type} {n : Nat} (v : Vector α n) (i j : Fin n) (a : α) : (v.set i a)[j] = if j = i then a else v[j] := by
  split
  · next same => subst same; exact Vector.getElem_set_self _
  · next other => exact Vector.getElem_set_ne _ _ fun e => other (Fin.ext e.symm)

section
variable {x y : Lift}

theorem Lift.tell_answers (l k : LaneNo) (m : LiftAnswer) : (x.tell l m).answers[k] = if k = l then x.answers[l] ++ [m] else x.answers[k] :=
  vector_set_get ..

theorem Lift.givePlace_answers (l k : LaneNo) (n : RequestNo) :
    (x.givePlace l n).answers[k] = x.answers[k] ++ if k = l then [.place n] else [] := by
  rw [Lift.givePlace, Lift.tell_answers]
  split
  · next same => rw [same]
  · exact (List.append_nil _).symm

theorem Lift.hasRoom_iff : x.hasRoom = true ↔ x.corralLimit = 0 ∨ x.occupancy + x.reservations.length < x.corralLimit := by
  rw [Lift.hasRoom, Bool.or_eq_true, decide_eq_true_eq, decide_eq_true_eq, Lift.reserved]

theorem Lift.inOperation_congr (enabled : y.enabled = x.enabled) (line : y.lineState.debounced = x.lineState.debounced) :
    y.inOperation = x.inOperation := by
  simp only [Lift.inOperation, Lift.state, enabled, line]

/-! ### The room arbiter (R81) -/

/-- The queue is served from its head, one place for each entry, until there is no room for the next. -/
theorem Lift.serve_serves (x : Lift) (queue : List HoldEntry) :
    ∃ (given kept : List HoldEntry) (answers : Vector (List LiftAnswer) 12), queue = given ++ kept
      ∧ x.serve queue =
        { x with
          reservations := x.reservations ++ given.map fun e => { lane := e.lane, request := e.request }
          holdQueue := kept
          answers := answers }
      ∧ (∀ l : LaneNo, answers[l] = x.answers[l] ++ (given.filter fun e => e.lane = l).map fun e => LiftAnswer.place e.request)
      ∧ (∀ j < given.length, x.corralLimit = 0 ∨ x.occupancy + x.reservations.length + j < x.corralLimit)
      ∧ (kept ≠ [] → x.corralLimit ≠ 0 ∧ x.corralLimit ≤ x.occupancy + x.reservations.length + given.length) := by
  induction queue generalizing x with
  | nil => exact ⟨[], [], x.answers, rfl, by simp [Lift.serve], by simp, by simp, by simp⟩
  | cons e rest ih =>
    by_cases room : x.hasRoom = true
    · obtain ⟨given, kept, answers, split, served, told, fits, full⟩ := ih (x.givePlace e.lane e.request)
      have reserved : (x.givePlace e.lane e.request).reservations.length = x.reservations.length + 1 := by simp [Lift.givePlace, Lift.tell]
      refine ⟨e :: given, kept, answers, by rw [split]; rfl, ?_, fun l => ?_, fun j short => ?_, fun waits => ?_⟩
      · rw [Lift.serve, if_pos room, served]
        simp [Lift.givePlace, Lift.tell]
      · rw [told, Lift.givePlace_answers, List.filter_cons]
        by_cases same : e.lane = l
        · simp [same]
        · simp [same, Ne.symm same]
      · cases j with
        | zero => exact Lift.hasRoom_iff.1 room
        | succ j =>
          have fits : x.corralLimit = 0 ∨ x.occupancy + (x.reservations.length + 1) + j < x.corralLimit :=
            reserved ▸ fits j (Nat.lt_of_succ_lt_succ short)
          omega
      · have full : x.corralLimit ≠ 0 ∧ x.corralLimit ≤ x.occupancy + (x.reservations.length + 1) + given.length :=
          reserved ▸ full waits
        simp only [List.length_cons]
        omega
    · have full := mt Lift.hasRoom_iff.2 room
      refine ⟨[], e :: rest, x.answers, rfl, by simp [Lift.serve, room], by simp, by simp, fun _ => ?_⟩
      simpa using full

theorem Lift.arbiter_out (out : x.inOperation = false) : x.arbiter = x := if_neg (by simp [out])

theorem Lift.arbiter_in (op : x.inOperation = true) : x.arbiter = x.serve x.holdQueue := if_pos op

/-- The arbiter writes nothing but the reservations, the hold queue and the answers. -/
theorem Lift.arbiter_frame (x : Lift) : ∃ reservations holdQueue answers, x.arbiter =
    { x with reservations := reservations, holdQueue := holdQueue, answers := answers } := by
  cases op : x.inOperation with
  | false => exact ⟨_, _, _, Lift.arbiter_out op⟩
  | true =>
    obtain ⟨given, kept, answers, -, served, -⟩ := x.serve_serves x.holdQueue
    exact ⟨_, _, _, (Lift.arbiter_in op).trans served⟩

@[simp] theorem Lift.arbiter_inOperation : x.arbiter.inOperation = x.inOperation := by
  obtain ⟨reservations, holdQueue, answers, frame⟩ := x.arbiter_frame
  rw [frame]
  rfl

/-- What the arbiter leaves waiting has no room. -/
theorem Lift.arbiter_full (op : x.inOperation = true) (waits : x.arbiter.holdQueue ≠ []) :
    x.arbiter.corralLimit ≠ 0 ∧ x.arbiter.corralLimit ≤ x.arbiter.occupancy + x.arbiter.reserved := by
  obtain ⟨given, kept, answers, -, served, -, -, full⟩ := x.serve_serves x.holdQueue
  rw [Lift.arbiter_in op, served] at waits ⊢
  simpa [Lift.reserved, Nat.add_assoc] using full waits

theorem Lift.serve_still (still : x.holdQueue ≠ [] → x.hasRoom = false) : x.serve x.holdQueue = x := by
  cases queue : x.holdQueue with
  | nil => rw [Lift.serve, ← queue]
  | cons e rest => rw [Lift.serve, still (by simp [queue]), ← queue]; rfl

/-- The arbiter has nothing more to do after it has run. -/
theorem Lift.arbiter_arbiter (x : Lift) : x.arbiter.arbiter = x.arbiter := by
  cases op : x.inOperation with
  | false => rw [Lift.arbiter_out op, Lift.arbiter_out op]
  | true =>
    rw [Lift.arbiter_in (x := x.arbiter) (by simpa using op), Lift.serve_still fun waits => ?_]
    obtain ⟨paced, full⟩ := Lift.arbiter_full op waits
    rw [← Bool.not_eq_true, Lift.hasRoom_iff]
    exact not_or.2 ⟨paced, Nat.not_lt.2 full⟩

/-! ### A change of operation (R71, R84, R85) -/

theorem Lift.stateChanged_leaves (out : y.inOperation = false) : y.stateChanged true = y.leaveOperation := by
  simp [Lift.stateChanged, out]

theorem Lift.stateChanged_enters (op : y.inOperation = true) : y.stateChanged false = y.enterOperation := by
  simp [Lift.stateChanged, op]

theorem Lift.stateChanged_same {was : Bool} (same : y.inOperation = was) : y.stateChanged was = y := by
  subst same
  unfold Lift.stateChanged
  cases y.inOperation <;> rfl

/-! ### LIFT_CONFIG (R69, R83) -/

theorem limitMakesRoom_iff {old new : Nat} : limitMakesRoom old new = true ↔ new ≠ old ∧ (new = 0 ∨ (old ≠ 0 ∧ old < new)) := by
  simp [limitMakesRoom, ne_comm, Nat.pos_iff_ne_zero]

section
variable {f : LiftForm}

theorem Lift.configure_leaves (op : x.inOperation = true) (out : (f.stored x).inOperation = false) :
    x.configure f = (f.stored x).leaveOperation := by
  have still : (f.stored x).leaveOperation.arbiter = (f.stored x).leaveOperation := Lift.arbiter_out out
  simp only [Lift.configure, op, Lift.stateChanged_leaves out, still, ite_self]

theorem Lift.configure_enters (out : x.inOperation = false) (op : (f.stored x).inOperation = true) :
    x.configure f = (f.stored x).enterOperation := by
  have still : (f.stored x).enterOperation.arbiter = (f.stored x).enterOperation := Lift.arbiter_arbiter _
  simp only [Lift.configure, out, Lift.stateChanged_enters op, still, ite_self]

theorem Lift.configure_stays (same : (f.stored x).inOperation = x.inOperation) :
    x.configure f = if limitMakesRoom x.corralLimit (f.stored x).corralLimit = true then (f.stored x).arbiter else f.stored x := by
  simp only [Lift.configure, Lift.stateChanged_same same]

theorem Lift.configure_out (out : x.inOperation = false) (stays : (f.stored x).inOperation = false) : x.configure f = f.stored x := by
  rw [Lift.configure_stays (stays.trans out.symm), Lift.arbiter_out stays, ite_self]

end

/-! ### Carrier pulses (R72, R77) -/

theorem Lift.pulse_running (running : x.state = .running) : x.pulse = Lift.arbiter { x with occupancy := x.occupancy - x.seatsPerCarrier } := by
  simp only [Lift.pulse, running]

theorem Lift.pulse_ignored (other : x.state ≠ .running) : x.pulse = x := by
  unfold Lift.pulse
  split
  · next running => exact absurd running other
  all_goals rfl

end
end Sys2Proof.Machine
end

section
set_option Elab.async false
/-! O15, first part: what a command can do to a lift, said once, and the law of each lift derived from it (R68, R69, R76, R79, R81, R84). -/
namespace Sys2Proof.Machine

/-! ### What a command can do to a lift -/

/-- `y` is as `x` in all that the law of a lift speaks of. -/
structure Lift.Aside (x y : Lift) : Prop where
  enabled : y.enabled = x.enabled
  resort : y.resortLift = x.resortLift
  seats : y.seatsPerCarrier = x.seatsPerCarrier
  limit : y.corralLimit = x.corralLimit
  line : y.lineState.debounced = x.lineState.debounced
  occupancy : y.occupancy = x.occupancy
  reservations : y.reservations = x.reservations
  holdQueue : y.holdQueue = x.holdQueue

/-- What a lift makes of a message that a lane has handed it (R76, R79, R80, R82). -/
def Lift.hears (x : Lift) (now : Reading) (l : LaneNo) : LaneMessage → Lift
  | .placeRequest n => x.takeRequest now l n
  | .passage n => (x.unreserve l n).enters.arbiter
  | .release n => (x.unreserve l n).arbiter
  | .leave n => (x.unqueue l n).arbiter
  | .freePassage | .intrusion => x.enters

/-- The lane and the lift whose message a command takes. -/
def messageTaken : Instr → Option (LaneNo × LiftNo)
  | .placeRequest l i | .liftPassage l i | .release l i | .leave l i | .liftFreePassage l i | .liftIntrusion l i => some (l, i)
  | _ => none

/-- The oldest message of the lane leaves it and is heard, if it is of the command's kind. -/
theorem exec_messageTaken {c : Instr} {s : State} {l : LaneNo} {i : LiftNo} (names : messageTaken c = some (l, i)) : exec c s = .next s
    ∨ ∃ m rest, (s.lane l).toLifts[i] = m :: rest ∧ exec c s = .next (s.liftTakes l i ((s.lift i).hears s.timebase l m)) := by
  cases c
  case placeRequest | liftPassage | release | leave | liftFreePassage | liftIntrusion =>
    cases names
    simp only [exec, execPlaceRequest, execLiftPassage, execRelease, execLeave, execLiftFreePassage, execLiftIntrusion]
    split
    · next waits =>
      obtain ⟨rest, handed⟩ := List.head?_eq_some_iff.1 waits
      exact .inr ⟨_, rest, handed, rfl⟩
    · exact .inl rfl
  all_goals cases names

/-- What one event at a lift may make of it: all but power-on reset. -/
inductive Lift.Event (x : Lift) : Lift → Prop
  | aside {y : Lift} (h : x.Aside y) : x.Event y
  | reset {answers : Vector (List LiftAnswer) 12} {resets : Nat} : x.Event
      { x with occupancy := 0, reservations := [], holdQueue := [], answers := answers, resetsPending := resets }
  | heard (now : Reading) (l : LaneNo) (m : LaneMessage) : x.Event (x.hears now l m)
  | pulsed (p : PulseLine) : x.Event (Lift.pulse { x with carrierLine := p })
  | settled : x.Event (Lift.stateChanged { x with lineState := x.lineState.settled } x.inOperation)
  | configured (f : LiftForm) : x.Event (x.configure f)

section
variable {x y : Lift}

theorem Lift.Aside.refl (x : Lift) : x.Aside x := ⟨rfl, rfl, rfl, rfl, rfl, rfl, rfl, rfl⟩

theorem Lift.Event.refl (x : Lift) : x.Event x := .aside (.refl x)

theorem Debounce.lineTakes_debounced {α : Type} [DecidableEq α] (d : Debounce α) (level : α) (ms : Nat) :
    (d.lineTakes level ms).debounced = d.debounced := by
  unfold Debounce.lineTakes
  split <;> rfl

theorem Lift.aside_tick (x : Lift) : x.Aside x.tick := ⟨rfl, rfl, rfl, rfl, rfl, rfl, rfl, rfl⟩

end

/-- Every command but power-on reset leaves each lift as it stands or has one event at it. -/
theorem exec_lifts {c : Instr} {s t : State} (h : exec c s = .next t) (on : c ≠ .powerOnReset) (j : LiftNo) :
    (s.lift j).Event (t.lift j) := by
  suffices event : Answers (fun t => (s.lift j).Event (t.lift j)) (exec c s) by rwa [h, answers_next] at event
  by_cases other : mayWriteLift c j = false
  · obtain ⟨t, answer, same⟩ := exec_lift_other (s := s) other
    exact ⟨t, answer, same ▸ .refl _⟩
  rw [Bool.not_eq_false] at other
  by_cases speaks : ∃ l, messageTaken c = some (l, j)
  · obtain ⟨l, names⟩ := speaks
    rcases exec_messageTaken (s := s) names with still | ⟨m, rest, -, taken⟩
    · exact still ▸ .of (.refl _)
    · exact taken ▸ .of ((State.setLift_lift_same _ j _).symm ▸ .heard _ l m)
  cases c
  case powerOnReset => exact absurd rfl on
  case stationReset =>
    simp only [exec, execStationReset]
    split
    · exact .of (.refl _)
    · exact .of (State.startReset_lift _ _ j ▸ .aside ⟨rfl, rfl, rfl, rfl, rfl, rfl, rfl, rfl⟩)
  case liftStationReset i =>
    obtain rfl := of_decide_eq_true other
    simp only [exec, execLiftStationReset]
    split
    · exact .of (.refl _)
    · exact .of ((State.setLift_lift_same s i _).symm ▸ .reset)
  case carrierPulse i active =>
    obtain rfl := of_decide_eq_true other
    simp only [exec, execCarrierPulse]
    split
    · exact .of ((State.setLift_lift_same s i _).symm ▸ .pulsed _)
    · exact .of ((State.setLift_lift_same s i _).symm ▸ .aside ⟨rfl, rfl, rfl, rfl, rfl, rfl, rfl, rfl⟩)
  case liftLineChange i lsa lsb =>
    obtain rfl := of_decide_eq_true other
    refine .of ((State.setLift_lift_same s i _).symm ▸ .aside ⟨rfl, rfl, rfl, rfl, ?_, rfl, rfl, rfl⟩)
    exact Debounce.lineTakes_debounced ..
  case liftDebounceExpiry i =>
    obtain rfl := of_decide_eq_true other
    simp only [exec, execLiftDebounceExpiry]
    split
    · exact .of ((State.setLift_lift_same s i _).symm ▸ .settled)
    · exact .of (.refl _)
  case liftConfig i =>
    obtain rfl := of_decide_eq_true other
    simp only [exec, execLiftConfig]
    split
    · exact .of (.refl _)
    · next taken =>
      obtain ⟨-, -, rfl⟩ := State.takeRequest_eq_some.1 taken
      split
      · simpa using .configured _
      · simpa using .refl _
  case placeRequest l i | liftPassage l i | release l i | leave l i | liftFreePassage l i | liftIntrusion l i =>
    exact absurd ⟨l, by rw [← of_decide_eq_true other]; rfl⟩ speaks
  case place l i | hold l i | refusal l i | inOperationChange l i =>
    obtain rfl := of_decide_eq_true other
    simp only [exec, execPlace, execHold, execRefusal, execInOperationChange]
    split
    · exact .of ((State.setLift_lift_same s i _).symm ▸ .aside ⟨rfl, rfl, rfl, rfl, rfl, rfl, rfl, rfl⟩)
    · exact .of (.refl _)
  all_goals cases other

/-! ### The law of a lift -/

/-- The law of a lift but for the requests that wait without need, which the room arbiter takes away. -/
structure Lift.Sound (x : Lift) : Prop where
  resort : x.resortLift ≤ 63
  seats : 1 ≤ x.seatsPerCarrier ∧ x.seatsPerCarrier ≤ 12
  limit : x.corralLimit ≤ 999
  occupancy : x.occupancy ≤ 999
  closed : x.inOperation = false → x.holdQueue = []

section
variable {x y z : Lift}

theorem Lift.Law.sound (hx : x.Law) : x.Sound := ⟨hx.resort, hx.seats, hx.limit, hx.occupancy, hx.closed⟩

theorem Lift.Sound.law (hx : x.Sound) (full : x.holdQueue ≠ [] → x.corralLimit ≠ 0 ∧ x.corralLimit ≤ x.occupancy + x.reserved) : x.Law :=
  ⟨hx.resort, hx.seats, hx.limit, hx.occupancy, hx.closed, full⟩

/-- The arbiter leaves no request waiting while there is room (R81). -/
theorem Lift.Sound.arbitrated (hx : x.Sound) : x.arbiter.Law := by
  cases op : x.inOperation with
  | false =>
    rw [Lift.arbiter_out op]
    exact hx.law fun waits => absurd (hx.closed op) waits
  | true =>
    have full := Lift.arbiter_full op
    have inOp : x.arbiter.inOperation = true := by simpa using op
    obtain ⟨reservations, holdQueue, answers, frame⟩ := x.arbiter_frame
    rw [frame] at full inOp ⊢
    exact ⟨hx.resort, hx.seats, hx.limit, hx.occupancy, fun out => absurd (inOp.symm.trans out) (by decide), full⟩

theorem Lift.Sound.entersOperation (hx : x.Sound) : x.enterOperation.Law :=
  Lift.Sound.arbitrated ⟨hx.resort, hx.seats, hx.limit, hx.occupancy, hx.closed⟩

theorem Lift.Law.aside (hx : x.Law) (h : x.Aside y) : y.Law where
  resort := h.resort ▸ hx.resort
  seats := h.seats ▸ hx.seats
  limit := h.limit ▸ hx.limit
  occupancy := h.occupancy ▸ hx.occupancy
  closed out := h.holdQueue ▸ hx.closed (Lift.inOperation_congr h.enabled h.line ▸ out)
  full := by
    rw [h.holdQueue, h.limit, h.occupancy, Lift.reserved, h.reservations]
    exact hx.full

theorem bump_le {cap n : Nat} (h : n ≤ cap) : bump cap n ≤ cap := by
  unfold bump
  split <;> omega

theorem le_bump (cap n : Nat) : n ≤ bump cap n := by
  unfold bump
  split <;> omega

theorem Lift.Law.entered (hx : x.Law) : x.enters.Law where
  __ := hx
  occupancy := bump_le hx.occupancy
  full waits := (hx.full waits).imp id fun full => full.trans (Nat.add_le_add_right (le_bump 999 _) _)

/-- A request is queued only by a lift in operation that has no room for it, or that others wait at (R79, R80). -/
theorem Lift.Law.requested (hx : x.Law) (now : Reading) (l : LaneNo) (n : RequestNo) : (x.takeRequest now l n).Law := by
  unfold Lift.takeRequest
  split
  · exact hx.aside ⟨rfl, rfl, rfl, rfl, rfl, rfl, rfl, rfl⟩
  · next op =>
    rw [Bool.not_eq_true', Bool.not_eq_false] at op
    split
    · exact ⟨hx.resort, hx.seats, hx.limit, hx.occupancy, hx.closed, fun waits => (hx.full waits).imp id fun full =>
        full.trans (by simp [Lift.givePlace, Lift.tell, Lift.reserved])⟩
    · next paced =>
      refine ⟨hx.resort, hx.seats, hx.limit, hx.occupancy, fun out => absurd (op.symm.trans out) (by decide), fun _ => ?_⟩
      simp only [Bool.or_eq_true, decide_eq_true_eq, Bool.and_eq_true, List.isEmpty_iff, not_or, not_and, Lift.hasRoom_iff] at paced
      obtain ⟨limited, waited⟩ := paced
      by_cases queue : x.holdQueue = []
      · exact ⟨limited, Nat.not_lt.1 (waited queue).2⟩
      · exact hx.full queue

theorem Lift.Sound.unreserved (hx : x.Sound) (l : LaneNo) (n : RequestNo) : (x.unreserve l n).Sound :=
  ⟨hx.resort, hx.seats, hx.limit, hx.occupancy, hx.closed⟩

theorem Lift.Sound.unqueued (hx : x.Sound) (l : LaneNo) (n : RequestNo) : (x.unqueue l n).Sound where
  __ := hx
  closed out := by
    have empty := hx.closed out
    simp [Lift.unqueue, empty]

theorem Lift.Sound.entered (hx : x.Sound) : x.enters.Sound where
  __ := hx
  occupancy := bump_le hx.occupancy

/-- An empty corral whose queue is empty needs its configuration in range and no more (R84, R87). -/
theorem Lift.Law.left (resort : x.resortLift ≤ 63) (seats : 1 ≤ x.seatsPerCarrier ∧ x.seatsPerCarrier ≤ 12) (limit : x.corralLimit ≤ 999)
    (occupancy : x.occupancy = 0 := by rfl) (holdQueue : x.holdQueue = [] := by rfl) : x.Law :=
  ⟨resort, seats, limit, occupancy ▸ Nat.zero_le _, fun _ => holdQueue, fun waits => absurd holdQueue waits⟩

theorem Lift.Law.pulsed (hx : x.Law) (p : PulseLine) : (Lift.pulse { x with carrierLine := p }).Law := by
  by_cases running : Lift.state { x with carrierLine := p } = .running
  · rw [Lift.pulse_running running]
    exact Lift.Sound.arbitrated { hx.sound with occupancy := (Nat.sub_le ..).trans hx.occupancy }
  · rw [Lift.pulse_ignored running]
    exact hx.aside ⟨rfl, rfl, rfl, rfl, rfl, rfl, rfl, rfl⟩

/-- A settled line state empties the queue, has it served, or leaves the lift in or out of operation as it was (R71, R84, R85). -/
theorem Lift.Law.settled (hx : x.Law) : (Lift.stateChanged { x with lineState := x.lineState.settled } x.inOperation).Law := by
  have sound (closed : Lift.inOperation { x with lineState := x.lineState.settled } = false → x.holdQueue = []) :
      Lift.Sound { x with lineState := x.lineState.settled } := ⟨hx.resort, hx.seats, hx.limit, hx.occupancy, closed⟩
  cases was : x.inOperation with
  | false =>
    cases now : Lift.inOperation { x with lineState := x.lineState.settled } with
    | false =>
      rw [Lift.stateChanged_same now]
      exact (sound fun _ => hx.closed was).law hx.full
    | true =>
      rw [Lift.stateChanged_enters now]
      exact (sound fun _ => hx.closed was).entersOperation
  | true =>
    cases now : Lift.inOperation { x with lineState := x.lineState.settled } with
    | false =>
      rw [Lift.stateChanged_leaves now]
      exact .left hx.resort hx.seats hx.limit
    | true =>
      rw [Lift.stateChanged_same now]
      exact (sound fun out => absurd (now.symm.trans out) (by decide)).law hx.full

theorem clamp_bounds {low high : Nat} (n : Nat) (h : low ≤ high) : low ≤ clamp low high n ∧ clamp low high n ≤ high := by
  unfold clamp
  repeat' split
  all_goals omega

theorem Lift.Law.configured (hx : x.Law) (f : LiftForm) : (x.configure f).Law := by
  have resort : (f.stored x).resortLift ≤ 63 := Nat.min_le_left ..
  have seats : 1 ≤ (f.stored x).seatsPerCarrier ∧ (f.stored x).seatsPerCarrier ≤ 12 := clamp_bounds f.seats (by decide)
  have limit : (f.stored x).corralLimit ≤ 999 := Nat.min_le_left ..
  have sound (closed : (f.stored x).inOperation = false → x.holdQueue = []) : (f.stored x).Sound :=
    ⟨resort, seats, limit, hx.occupancy, closed⟩
  cases was : x.inOperation with
  | false =>
    cases now : (f.stored x).inOperation with
    | false =>
      rw [Lift.configure_out was now]
      exact (sound fun _ => hx.closed was).law fun waits => absurd (hx.closed was) waits
    | true =>
      rw [Lift.configure_enters was now]
      exact (sound fun _ => hx.closed was).entersOperation
  | true =>
    cases now : (f.stored x).inOperation with
    | false =>
      rw [Lift.configure_leaves was now]
      exact .left resort seats limit
    | true =>
      have sound := sound fun out => absurd (now.symm.trans out) (by decide)
      rw [Lift.configure_stays (now.trans was.symm)]
      split
      · exact sound.arbitrated
      · next unraised =>
        refine sound.law fun waits => ?_
        obtain ⟨paced, full⟩ : x.corralLimit ≠ 0 ∧ x.corralLimit ≤ (f.stored x).occupancy + (f.stored x).reserved := hx.full waits
        rw [limitMakesRoom_iff] at unraised
        omega

/-- What a lane hands a lift leaves no request waiting while there is room (R76, R79, R81, R82). -/
theorem Lift.Law.heard (hx : x.Law) (now : Reading) (l : LaneNo) (m : LaneMessage) : (x.hears now l m).Law := by
  cases m with
  | placeRequest n => exact hx.requested now l n
  | passage n => exact (hx.sound.unreserved l n).entered.arbitrated
  | release n => exact (hx.sound.unreserved l n).arbitrated
  | leave n => exact (hx.sound.unqueued l n).arbitrated
  | freePassage => exact hx.entered
  | intrusion => exact hx.entered

theorem Lift.Event.law (hx : x.Law) (h : x.Event y) : y.Law := by
  cases h with
  | aside h => exact hx.aside h
  | reset => exact .left hx.resort hx.seats hx.limit
  | heard now l m => exact hx.heard now l m
  | pulsed p => exact hx.pulsed p
  | settled => exact hx.settled
  | configured f => exact hx.configured f

end

theorem State.tick_lift (s : State) (i : LiftNo) : s.tick.lift i = (s.lift i).tick := Vector.getElem_map ..

/-- Power-on reset starts every lift afresh (R87). -/
theorem execPowerOnReset_lift {s t : State} (h : execPowerOnReset s = .next t) (i : LiftNo) : t.lift i =
    Lift.powerOn (s.lift i).lineState.line (s.lift i).carrierLine.active := by
  cases h
  exact Vector.getElem_map ..

theorem step_liftLaw {s t : State} (law : s.LiftLaw) (h : step s = .next t) : t.LiftLaw := fun i => by
  rcases step_cases h with rfl | ⟨c, rest, h⟩
  · rw [State.tick_lift]
    exact (law i).aside (Lift.aside_tick _)
  · by_cases on : c = .powerOnReset
    · subst on
      rw [execPowerOnReset_lift h]
      exact Lift.powerOn_law ..
    · exact (exec_lifts h on i).law (law i)

end Sys2Proof.Machine
end

section
set_option Elab.async false
/-! O15, last part: no reserved place is left behind. What a lane owes the lifts is followed in its pledge, what a lift has handed out in its
reservations, and both through each event (R76, R78 to R82, R84, R87; log entries 33, 44, 51). -/
namespace Sys2Proof.Machine

/-! ### The pledge of a lane -/

/-- What counts of a lane for the places of the lifts: the place that its UNLOCKED admission holds, and what it has handed the lifts. -/
structure Pledge where
  held : Option (LiftNo × RequestNo)
  handed : Vector (List LaneMessage) 4
  resets : Nat

/-- The place of an admission (R105, R108). -/
def Admission.place (a : Admission) : Option (LiftNo × RequestNo) := if a.phase = some .unlocked then some (a.lift, a.request) else none

def Lane.pledge (x : Lane) : Pledge := { held := x.admission.bind Admission.place, handed := x.toLifts, resets := x.resetsPending }

/-- A message that gives a place back (R82). -/
def LaneMessage.returns (m : LaneMessage) (n : RequestNo) : Bool := decide (m = .passage n ∨ m = .release n)

/-- `Lane.owes`, read in the pledge. -/
def Pledge.owes (k : Pledge) (i : LiftNo) (n : RequestNo) : Nat := (decide (k.held = some (i, n))).toNat + k.handed[i].countP (·.returns n)

/-- What counts of `m` for a lift is what counts of `k` and perhaps more places; to a lift that discards it, the lane has handed no new request. -/
structure Pledge.Keeps (env : LaneEnv) (i : LiftNo) (k m : Pledge) : Prop where
  resets : m.resets = k.resets
  owes : env.discards[i] = false → ∀ n, k.owes i n ≤ m.owes i n
  asks : env.discards[i] = true → ∀ n, LaneMessage.placeRequest n ∈ m.handed[i] → LaneMessage.placeRequest n ∈ k.handed[i]

section
variable {env : LaneEnv} {i : LiftNo} {k m n : Pledge} {x y z : Lane} {l : LaneNo}

theorem Admission.place_eq_some {a : Admission} {r : RequestNo} : a.place = some (i, r) ↔ a.phase = some .unlocked ∧ a.lift = i ∧ a.request = r := by
  simp [Admission.place]

theorem Lane.owes_eq (x : Lane) (i : LiftNo) (n : RequestNo) : x.owes i n = x.pledge.owes i n := by
  unfold Lane.owes Pledge.owes
  congr 2
  cases held : x.admission <;> simp [Lane.pledge, held, Admission.place_eq_some]

/-! ### What keeps a pledge -/

theorem Pledge.Keeps.refl (env : LaneEnv) (i : LiftNo) (k : Pledge) : k.Keeps env i k := ⟨rfl, fun _ _ => Nat.le_refl _, fun _ _ => id⟩

theorem Pledge.Keeps.of_eq (h : m = k) : k.Keeps env i m := h ▸ .refl env i k

theorem Pledge.Keeps.trans (h : k.Keeps env i m) (g : m.Keeps env i n) : k.Keeps env i n where
  resets := g.resets.trans h.resets
  owes heard r := (h.owes heard r).trans (g.owes heard r)
  asks deaf r asked := h.asks deaf r (g.asks deaf r asked)

theorem LaneEnv.told_get (env : LaneEnv) (handed : Vector (List LaneMessage) 4) (j i : LiftNo) (ms : List LaneMessage) :
    (env.told handed j ms)[i] = handed[i] ++ if i = j ∧ env.discards[i] = false then ms else [] := by
  unfold LaneEnv.told
  split
  · next deaf =>
    have unheard : ¬ (i = j ∧ env.discards[i] = false) := by
      rintro ⟨rfl, heard⟩
      exact absurd (heard.symm.trans deaf) (by decide)
    simp only [if_neg unheard, List.append_nil]
  · next heard =>
    rw [vector_set_get]
    split
    · next same => subst same; rw [if_pos ⟨rfl, by simpa using heard⟩]
    · next other => simp [other]

/-- Messages join what is handed, and the place given back in one of them may go (R82, R87). -/
theorem Pledge.Keeps.told {held : Option (LiftNo × RequestNo)} (j : LiftNo) (ms : List LaneMessage)
    (given : ∀ j' r, k.held = some (j', r) → held = k.held ∨ j' = j ∧ ∃ msg ∈ ms, msg.returns r = true) :
    k.Keeps env i { k with held := held, handed := env.told k.handed j ms } where
  resets := rfl
  owes heard r := by
    simp only [Pledge.owes, LaneEnv.told_get, List.countP_append, heard, and_true]
    by_cases place : k.held = some (i, r)
    · rcases given i r place with kept | ⟨rfl, returned⟩
      · simp [kept]
      · have := List.countP_pos_iff.2 returned
        simp only [place, decide_true, Bool.toNat_true, if_true]
        omega
    · simp [place]
      omega
  asks deaf r asked := by simpa only [LaneEnv.told_get, deaf, Bool.true_eq_false, and_false, if_false, List.append_nil] using asked

/-- A message that is no place request joins what is handed, whether the lift discards or not (R61). -/
theorem Pledge.Keeps.counted (j : LiftNo) {msg : LaneMessage} (kind : ∀ r, msg ≠ .placeRequest r) :
    k.Keeps env i { k with handed := k.handed.set j (k.handed[j] ++ [msg]) } where
  resets := rfl
  owes _ r := by
    refine Nat.add_le_add_left ?_ _
    simp only [vector_set_get]
    split
    · next same => subst same; simp
    · exact Nat.le_refl _
  asks _ r asked := by
    simp only [vector_set_get] at asked
    split at asked
    · next same => subst same; simpa [(kind r).symm] using asked
    · exact asked

/-! ### The pledge after each part of an event -/

@[simp] theorem Lane.show_pledge (g : Signal) (r : ShowReason) (heads : Nat) : (x.show g r heads).pledge = x.pledge := rfl

@[simp] theorem Lane.raise_pledge (r : Raise) : (x.raise r).pledge = x.pledge := rfl

@[simp] theorem Lane.count_pledge (f : LaneCounters → LaneCounters) : (x.count f).pledge = x.pledge := rfl

@[simp] theorem Lane.settle_pledge : x.settle.pledge = x.pledge := rfl

@[simp] theorem Lane.decisionTaken_pledge : x.decisionTaken.pledge = x.pledge := rfl

@[simp] theorem Lane.handRowOp_pledge (op : RowOp) : (x.handRowOp op).pledge = x.pledge := by simp [Lane.pledge]

@[simp] theorem Lane.deny_pledge (r : DenyReason) : (x.deny r).pledge = x.pledge := by simp [Lane.pledge]

@[simp] theorem Lane.endAdmission_pledge (a : Admission) : (x.endAdmission a).pledge = { x.pledge with held := none } := by simp [Lane.pledge]

theorem Lane.pledge_held {a : Admission} (held : x.admission = some a) : x.pledge.held = a.place := by simp [Lane.pledge, held]

theorem LaneEnv.told_nil (env : LaneEnv) (handed : Vector (List LaneMessage) 4) (j : LiftNo) : env.told handed j [] = handed := by
  simp [LaneEnv.told]

/-- A place request, a passage, a release or a leave joins what is handed, unless the lift discards it (R87). -/
theorem Lane.tell_eq {msg : LaneMessage} (counted : msg ≠ .freePassage) (counted' : msg ≠ .intrusion) (j : LiftNo) :
    x.tell env j msg = { x with toLifts := env.told x.toLifts j [msg] } := by
  cases msg
  case freePassage => exact absurd rfl counted
  case intrusion => exact absurd rfl counted'
  all_goals
    unfold Lane.tell LaneEnv.told
    dsimp only
    split <;> rfl

theorem Lane.tell_pledge (j : LiftNo) {msg : LaneMessage} (counted : msg ≠ .freePassage) (counted' : msg ≠ .intrusion) :
    x.pledge.Keeps env i (x.tell env j msg).pledge := by
  rw [Lane.tell_eq counted counted']
  exact .told j [msg] fun _ _ _ => .inl rfl

/-- An admission ends or goes on to its next head, and its place, if it holds one, is given back in what the lane hands its lift (R82, R111). -/
theorem Lane.ended_pledge {a : Admission} (held : x.admission = some a) (ms : List LaneMessage)
    (returned : a.phase = some .unlocked → ∃ msg ∈ ms, msg.returns a.request = true)
    (ended : y.pledge = { x.pledge with held := none, handed := env.told x.toLifts a.lift ms }) : x.pledge.Keeps env i y.pledge := by
  rw [ended]
  refine .told a.lift ms fun j r place => .inr ?_
  obtain ⟨unlocked, rfl, rfl⟩ := Admission.place_eq_some.1 ((Lane.pledge_held held).symm.trans place)
  exact ⟨rfl, returned unlocked⟩

/-! ### Each event -/

/-- What a cancellation hands the lift, by the phase (R121). -/
theorem Lane.giveUp_eq (a : Admission) : x.giveUp env a =
    { x with toLifts := env.told x.toLifts a.lift (match a.phase with
      | some .unlocked => [.release a.request]
      | some .hold => [.leave a.request]
      | none => []) } := by
  unfold Lane.giveUp
  match a.phase with
  | none => rw [LaneEnv.told_nil]
  | some .unlocked => exact Lane.tell_eq (msg := .release a.request) nofun nofun a.lift
  | some .hold => exact Lane.tell_eq (msg := .leave a.request) nofun nofun a.lift

theorem Lane.cancel_pledge : x.pledge.Keeps env i (x.cancel env).pledge := by
  unfold Lane.cancel
  split
  · exact .refl ..
  · next a held =>
    rw [Lane.giveUp_eq]
    refine Lane.ended_pledge held _ (fun unlocked => ?_) (Lane.endAdmission_pledge a)
    simp [unlocked, LaneMessage.returns]

theorem Lane.rederive_pledge : x.pledge.Keeps env i (x.rederive env).pledge := by
  unfold Lane.rederive
  dsimp only
  split
  · exact .refl ..
  · split
    · exact Lane.cancel_pledge
    · exact .refl ..

/-- A re-derivation after a change of what the pledge does not hold. -/
theorem Lane.rederived_pledge (same : y.pledge = x.pledge) : x.pledge.Keeps env i (y.rederive env).pledge := same ▸ Lane.rederive_pledge

theorem Lane.rederiveLift_pledge (cause : ServedCause) : x.pledge.Keeps env i (x.rederiveLift env cause).pledge := by
  unfold Lane.rederiveLift
  dsimp only
  split
  · exact .refl ..
  · split
    · exact Lane.rederived_pledge rfl
    · split
      · exact Lane.rederived_pledge rfl
      · split
        · exact Lane.cancel_pledge (x := x)
        · exact (Lane.cancel_pledge (x := x)).trans (Lane.rederived_pledge rfl)

theorem Lane.remap_pledge (primary : LiftNo) (secondary : Option LiftNo) : x.pledge.Keeps env i (x.remap env primary secondary).pledge :=
  Lane.rederiveLift_pledge (x := { x with primaryLift := primary, secondaryLift := secondary }) _

theorem Lane.takeChange_pledge (j : LiftNo) (inOperation : Bool) : x.pledge.Keeps env i (x.takeChange env j inOperation).pledge := by
  unfold Lane.takeChange
  dsimp only
  split
  · exact Lane.rederiveLift_pledge (x := { x with liftInOperation := x.liftInOperation.set j inOperation }) _
  · exact .refl ..

theorem Lane.setMode_pledge (mode : ConfiguredMode) : x.pledge.Keeps env i (x.setMode env mode).pledge := by
  unfold Lane.setMode
  split
  · exact .refl ..
  · exact Lane.rederived_pledge rfl

theorem Lane.clearFaults_pledge : x.pledge.Keeps env i (x.clearFaults env).pledge := by
  unfold Lane.clearFaults
  split
  · exact Lane.rederived_pledge rfl
  · exact .refl ..

theorem Lane.turnKey_pledge (position : KeyPosition) : x.pledge.Keeps env i (x.turnKey env position).pledge := by
  unfold Lane.turnKey
  split
  · exact .refl ..
  · exact Lane.rederived_pledge rfl

@[simp] theorem Lane.takeTap_pledge (uid : Uid) : (x.takeTap uid).pledge = x.pledge := by
  unfold Lane.takeTap
  repeat' split
  all_goals simp
  rfl

@[simp] theorem Lane.tapArrives_pledge (uid : Uid) : (x.tapArrives uid).pledge = x.pledge := by
  unfold Lane.tapArrives
  split
  · rfl
  · exact Lane.takeTap_pledge uid

@[simp] theorem Lane.takeEmptied_pledge : x.takeEmptied.pledge = x.pledge := by
  unfold Lane.takeEmptied
  dsimp only
  repeat' split
  · rfl
  · rfl
  · exact Lane.takeTap_pledge _

/-- A head that passes gives its place back in the passage (R111). -/
theorem Lane.headPasses_pledge {a : Admission} (held : x.admission = some a) : x.pledge.Keeps env i (x.headPasses env a).pledge := by
  by_cases more : a.headsPassed + 1 < a.headsTotal
  · rw [Lane.headPasses_next more]
    exact Lane.ended_pledge held _ (fun _ => ⟨_, List.mem_cons_self, by simp [LaneMessage.returns]⟩) rfl
  · rw [Lane.headPasses_last (Nat.not_lt.1 more)]
    exact Lane.ended_pledge held _ (fun _ => ⟨_, List.mem_cons_self, by simp [LaneMessage.returns]⟩) rfl

theorem Lane.servedTold_pledge {msg : LaneMessage} (kind : ∀ r, msg ≠ .placeRequest r) :
    x.pledge.Keeps env i { x.pledge with handed := x.servedTold msg } := by
  unfold Lane.servedTold
  split
  · exact .counted _ kind
  · exact .refl ..

theorem Lane.rotates_pledge : x.pledge.Keeps env i (x.rotates env l).pledge := by
  by_cases attached : x.effective = .detached
  · rw [Lane.rotates_detached attached]
    exact .refl ..
  by_cases unlocked : ∃ a, x.admission = some a ∧ a.phase = some .unlocked
  · obtain ⟨a, held, unlocked⟩ := unlocked
    rw [Lane.rotates_passes attached held unlocked]
    exact Lane.headPasses_pledge held
  · rw [Lane.rotates_unadmitted attached fun a held phase => unlocked ⟨a, held, phase⟩, Lane.freePassage_eq, Lane.intrusion_eq]
    split <;> exact Lane.servedTold_pledge nofun

theorem Lane.windowExpires_pledge {a : Admission} (held : x.admission = some a) : x.pledge.Keeps env i (x.windowExpires env a).pledge := by
  rw [Lane.windowExpires, Lane.tell_eq (msg := .release a.request) nofun nofun]
  refine Lane.ended_pledge held [.release a.request] (fun _ => ⟨_, List.mem_cons_self, by simp [LaneMessage.returns]⟩) ?_
  split <;> exact Lane.endAdmission_pledge a

/-- A hold that expires holds no place (R119). -/
theorem Lane.holdExpires_pledge {a : Admission} (held : x.admission = some a) (phase : a.phase = some .hold) :
    x.pledge.Keeps env i (x.holdExpires env a).pledge := by
  rw [Lane.holdExpires, Lane.tell_eq (msg := .leave a.request) nofun nofun]
  exact Lane.ended_pledge held [.leave a.request] (by simp [phase]) (Lane.endAdmission_pledge a)

theorem Lane.takeCancellation_pledge (uid : Uid) : x.pledge.Keeps env i (x.takeCancellation env uid).pledge := by
  unfold Lane.takeCancellation
  repeat' split
  · exact Lane.cancel_pledge
  · exact .refl ..
  · exact .refl ..

theorem Lane.takeRefusal_pledge (j : LiftNo) (n : RequestNo) : x.pledge.Keeps env i (x.takeRefusal env j n).pledge := by
  unfold Lane.takeRefusal
  repeat' split
  · exact Lane.cancel_pledge
  · exact .refl ..
  · exact .refl ..

/-- A hold taken unlocks nothing; one that finds a phase or no admission is left (R109). -/
theorem Lane.takeHold_pledge (j : LiftNo) (n : RequestNo) : x.pledge.Keeps env i (x.takeHold env j n).pledge := by
  unfold Lane.takeHold
  repeat' split
  · next a held current =>
    refine .of_eq ?_
    simp [Lane.holdFor, Lane.pledge, held, Admission.place, Admission.held, current.2]
  · exact Lane.tell_pledge j nofun nofun
  · exact Lane.tell_pledge j nofun nofun

/-- A place taken counts for at least as much as one given back at once, whether it unlocks or is stale (R82, R108). -/
theorem Lane.takePlace_pledge (j : LiftNo) (n : RequestNo) :
    Pledge.Keeps env i { x.pledge with handed := env.told x.toLifts j [.release n] } (x.takePlace env j n).pledge := by
  have stale : Pledge.Keeps env i { x.pledge with handed := env.told x.toLifts j [.release n] } (x.tell env j (.release n)).pledge := by
    rw [Lane.tell_eq (msg := .release n) nofun nofun]
    exact .refl ..
  unfold Lane.takePlace
  repeat' split
  · next a held current =>
    obtain ⟨awaited, locked⟩ := current
    simp only [Admission.awaits, Bool.and_eq_true, decide_eq_true_eq] at awaited
    obtain ⟨rfl, rfl⟩ := awaited
    have before : x.pledge.held = none := by simp [Lane.pledge_held held, Admission.place, locked]
    have handed : x.pledge.handed = x.toLifts := rfl
    have after : (x.unlockFor env a).pledge = { x.pledge with held := some (a.lift, a.request) } := rfl
    rw [after]
    refine ⟨rfl, fun heard r => ?_, fun deaf r asked => ?_⟩
    · have returned : (if i = a.lift then [LaneMessage.release a.request] else []).countP (·.returns r)
          = (decide (some (a.lift, a.request) = some (i, r))).toNat := by
        by_cases same : i = a.lift
        · by_cases number : a.request = r <;> simp [same, number, LaneMessage.returns]
        · simp [same, Ne.symm same]
      simp only [Pledge.owes, LaneEnv.told_get, before, heard, and_true, List.countP_append, returned, handed,
        reduceCtorEq, decide_false, Bool.toNat_false]
      omega
    · simpa only [LaneEnv.told_get, deaf, Bool.true_eq_false, and_false, if_false, List.append_nil, Lane.pledge] using asked
  · exact stale
  · exact stale

/-- A grant holds no place yet, and asks for one unless the lift discards it (R99, R107). -/
theorem Lane.grant_pledge (lift : LiftNo) (slot : Nat) (uid : Uid) (heads : Nat) (free : x.admission = none) :
    x.pledge.Keeps env i (x.grant env l lift slot uid heads).pledge := by
  have granted : (x.grant env l lift slot uid heads).pledge =
      { x.pledge with handed := env.told x.toLifts lift [.placeRequest (x.lastRequest + 1)] } := by
    rw [Lane.grant, Lane.requestPlace, Lane.tell_placeRequest]
    simp [Lane.pledge, free, Admission.place, newAdmission]
  rw [granted]
  exact .told lift _ fun _ _ _ => .inl rfl

theorem Lane.stationReset_pledge : x.stationReset.pledge = { x.pledge with held := none, resets := x.resetsPending - 1 } := rfl

end

/-! ### What a lift has handed out, against what a lane owes it -/

/-- The two parts of `State.PlaceLaw` for one lane and one lift. -/
structure Lift.Accounts (y : Lift) (l : LaneNo) (i : LiftNo) (k : Pledge) : Prop where
  accounted : y.resetsPending ≤ k.resets → ∀ n,
    y.reservations.count { lane := l, request := n } ≤ y.answers[l].count (.place n) + k.owes i n
  emptied : y.resetsPending < k.resets →
    (∀ r ∈ y.reservations, r.lane ≠ l) ∧ (∀ e ∈ y.holdQueue, e.lane ≠ l) ∧ ∀ n, LaneMessage.placeRequest n ∉ k.handed[i]

theorem State.placeLaw_iff {s : State} : s.PlaceLaw ↔ ∀ l i, (s.lift i).Accounts l i (s.lane l).pledge := by
  constructor
  · intro law l i
    exact ⟨fun due n => Lane.owes_eq .. ▸ law.accounted l i n due, law.emptied l i⟩
  · intro law
    exact ⟨fun l i n due => Lane.owes_eq .. ▸ (law l i).accounted due n, fun l i => (law l i).emptied⟩

/-- Each reservation that `z` has more than `y` for a lane is of a place it has handed the lane since. -/
structure Lift.Pays (l : LaneNo) (y z : Lift) : Prop where
  resets : z.resetsPending = y.resetsPending
  places : ∀ n, z.reservations.count { lane := l, request := n } + y.answers[l].count (.place n)
    ≤ y.reservations.count { lane := l, request := n } + z.answers[l].count (.place n)

/-- As `Lift.Pays`, and nothing of the lane has joined where nothing of it stood. -/
structure Lift.Balances (l : LaneNo) (y z : Lift) : Prop extends Lift.Pays l y z where
  emptied : (∀ r ∈ y.reservations, r.lane ≠ l) → (∀ e ∈ y.holdQueue, e.lane ≠ l) →
    (∀ r ∈ z.reservations, r.lane ≠ l) ∧ ∀ e ∈ z.holdQueue, e.lane ≠ l

section
variable {y z w : Lift} {l : LaneNo} {i : LiftNo} {k m : Pledge} {env : LaneEnv}

theorem Lift.Accounts.kept (h : y.Accounts l i k) (deaf : env.discards[i] = decide (y.resetsPending < k.resets)) (g : k.Keeps env i m) :
    y.Accounts l i m where
  accounted due n := by
    by_cases ahead : y.resetsPending < k.resets
    · have none : y.reservations.count { lane := l, request := n } = 0 :=
        List.count_eq_zero.2 fun mem => (h.emptied ahead).1 _ mem rfl
      omega
    · exact (h.accounted (g.resets ▸ due) n).trans (Nat.add_le_add_left (g.owes (by simp [deaf, ahead]) n) _)
  emptied ahead := by
    have ahead : y.resetsPending < k.resets := g.resets ▸ ahead
    obtain ⟨reservations, queue, asked⟩ := h.emptied ahead
    exact ⟨reservations, queue, fun n mem => asked n (g.asks (by simp [deaf, ahead]) n mem)⟩

theorem Lift.Accounts.balanced (h : y.Accounts l i k) (g : y.Balances l z) : z.Accounts l i k where
  accounted due n := by
    have := h.accounted (g.resets ▸ due) n
    have := g.places n
    omega
  emptied ahead := by
    obtain ⟨reservations, queue, asked⟩ := h.emptied (g.resets ▸ ahead)
    obtain ⟨reservations, queue⟩ := g.emptied reservations queue
    exact ⟨reservations, queue, asked⟩

theorem Lift.Balances.trans (h : y.Balances l z) (g : z.Balances l w) : y.Balances l w where
  resets := g.resets.trans h.resets
  places n := by
    have := h.places n
    have := g.places n
    omega
  emptied reservations queue := by
    obtain ⟨reservations, queue⟩ := h.emptied reservations queue
    exact g.emptied reservations queue

/-- Nothing is reserved or handed, and no request joins. -/
theorem Lift.Balances.of_same (queue : ∀ e ∈ z.holdQueue, e ∈ y.holdQueue) (resets : z.resetsPending = y.resetsPending := by rfl)
    (reservations : z.reservations = y.reservations := by rfl) (answers : z.answers = y.answers := by rfl) : y.Balances l z where
  resets := resets
  places n := by rw [reservations, answers]
  emptied reserved queued := ⟨reservations ▸ reserved, fun e mem => queued e (queue e mem)⟩

theorem Lift.Balances.refl (l : LaneNo) (y : Lift) : y.Balances l y := .of_same fun _ => id

/-! ### Each part of an event at the lift -/

/-- The reservations of a lane among those of given requests are as many as the places handed it (R78, R81). -/
theorem count_given (given : List HoldEntry) (l : LaneNo) (n : RequestNo) :
    (given.map fun e => ({ lane := e.lane, request := e.request } : Reservation)).count { lane := l, request := n }
      = ((given.filter fun e => e.lane = l).map fun e => LiftAnswer.place e.request).count (.place n) := by
  simp only [List.count_eq_countP, List.countP_map, List.countP_filter]
  congr 1
  funext e
  simp [Function.comp, Bool.and_comm, Bool.beq_eq_decide_eq]

theorem Lift.arbiter_balances : y.Balances l y.arbiter := by
  cases op : y.inOperation with
  | false =>
    rw [Lift.arbiter_out op]
    exact .refl l y
  | true =>
    obtain ⟨given, kept, answers, queue, served, told, -, -⟩ := y.serve_serves y.holdQueue
    rw [Lift.arbiter_in op, served]
    refine ⟨⟨rfl, fun n => ?_⟩, fun reserved queued => ⟨fun r mem => ?_, fun e mem => ?_⟩⟩
    · simp only [told, List.count_append, count_given]
      omega
    · rcases List.mem_append.1 mem with old | new
      · exact reserved r old
      · obtain ⟨e, given, rfl⟩ := List.mem_map.1 new
        exact queued e (queue ▸ List.mem_append_left _ given)
    · exact queued e (queue ▸ List.mem_append_right _ mem)

theorem Lift.unreserve_eq (y : Lift) (l : LaneNo) (n : RequestNo) : y.unreserve l n =
    { y with reservations := y.reservations.erase { lane := l, request := n } } := by
  have same : (fun r : Reservation => r.lane == l && r.request == n) = (({ lane := l, request := n } : Reservation) == ·) := by
    funext r
    rw [Bool.eq_iff_iff]
    cases r
    simp [eq_comm (b := l), eq_comm (b := n)]
  rw [Lift.unreserve, same, ← List.erase_eq_eraseP]

theorem Lift.unreserve_balances (j : LaneNo) (n : RequestNo) : y.Balances l (y.unreserve j n) where
  resets := rfl
  places _ := Nat.add_le_add_right (List.eraseP_sublist.count_le _) _
  emptied reserved queued := ⟨fun r mem => reserved r (List.mem_of_mem_eraseP mem), queued⟩

theorem Lift.unqueue_balances (j : LaneNo) (n : RequestNo) : y.Balances l (y.unqueue j n) := .of_same fun _ => List.mem_of_mem_eraseP

theorem Lift.enters_balances : y.Balances l y.enters := .of_same fun _ => id

theorem Lift.givePlace_pays (j : LaneNo) (n : RequestNo) : y.Pays l (y.givePlace j n) where
  resets := rfl
  places r := by
    rw [Lift.givePlace_answers]
    by_cases same : l = j
    · by_cases number : n = r <;> simp [Lift.givePlace, Lift.tell, same, number]
      omega
    · simp [Lift.givePlace, Lift.tell, same, Ne.symm same]

/-- An answer that is no place pays for nothing (R79). -/
theorem Lift.tell_pays (j : LaneNo) {answer : LiftAnswer} (kind : ∀ n, answer ≠ .place n) : y.Pays l (y.tell j answer) where
  resets := rfl
  places r := by
    rw [Lift.tell_answers]
    split
    · next same => subst same; simp [(kind r), Lift.tell]
    · exact Nat.le_refl _

theorem Lift.takeRequest_pays (now : Reading) (j : LaneNo) (n : RequestNo) : y.Pays l (y.takeRequest now j n) := by
  unfold Lift.takeRequest
  repeat' split
  · exact Lift.tell_pays j nofun
  · exact Lift.givePlace_pays j n
  · have pays : Lift.Pays l _ (Lift.tell { y with holdQueue := y.holdQueue ++ [{ lane := j, request := n, holdStart := now }] } j (.hold n)) :=
      Lift.tell_pays j nofun
    exact ⟨pays.resets, pays.places⟩

/-- A request concerns no lane but the one that hands it (R79). -/
theorem Lift.takeRequest_balances (now : Reading) {j : LaneNo} (n : RequestNo) (other : l ≠ j) : y.Balances l (y.takeRequest now j n) where
  toPays := Lift.takeRequest_pays now j n
  emptied reserved queued := by
    unfold Lift.takeRequest
    repeat' split
    · exact ⟨reserved, queued⟩
    · refine ⟨fun r mem => ?_, queued⟩
      rcases List.mem_append.1 mem with old | new
      · exact reserved r old
      · rw [List.mem_singleton.1 new]; exact other.symm
    · refine ⟨reserved, fun e mem => ?_⟩
      rcases List.mem_append.1 mem with old | new
      · exact queued e old
      · rw [List.mem_singleton.1 new]; exact other.symm

/-- What a lane hands a lift makes nothing join of any other lane (R76, R79 to R82). -/
theorem Lift.hears_balances (now : Reading) {j : LaneNo} (msg : LaneMessage) (other : l ≠ j) : y.Balances l (y.hears now j msg) := by
  cases msg with
  | placeRequest n => exact Lift.takeRequest_balances now n other
  | passage n => exact ((Lift.unreserve_balances j n).trans Lift.enters_balances).trans Lift.arbiter_balances
  | release n => exact (Lift.unreserve_balances j n).trans Lift.arbiter_balances
  | leave n => exact (Lift.unqueue_balances j n).trans Lift.arbiter_balances
  | freePassage => exact Lift.enters_balances
  | intrusion => exact Lift.enters_balances

/-! ### The messages of a lane, taken by the lift -/

/-- The pledge once the lift has taken the oldest message (R82). -/
def Pledge.heard (k : Pledge) (i : LiftNo) : Pledge := { k with handed := k.handed.set i k.handed[i].tail }

theorem Pledge.heard_get (k : Pledge) (i j : LiftNo) : (k.heard i).handed[j] = if j = i then k.handed[i].tail else k.handed[j] := vector_set_get ..

/-- A place given back leaves the reservation list as its message leaves the lane (R82). -/
theorem Lift.Accounts.returned (h : y.Accounts l i k) {msg : LaneMessage} {rest : List LaneMessage} {n : RequestNo}
    (waits : k.handed[i] = msg :: rest) (kind : ∀ r, msg.returns r = decide (n = r)) : (y.unreserve l n).Accounts l i (k.heard i) where
  accounted due r := by
    have stood := h.accounted due r
    have held : (k.heard i).held = k.held := rfl
    simp only [Pledge.owes, waits, List.countP_cons, kind, decide_eq_true_eq] at stood
    rw [Lift.unreserve_eq]
    simp only [Pledge.owes, Pledge.heard_get, held, waits, if_true, List.tail_cons, List.count_erase, beq_iff_eq, Reservation.mk.injEq, true_and]
    by_cases same : n = r
    · rw [if_pos same] at stood ⊢
      omega
    · rw [if_neg same] at stood ⊢
      exact stood
  emptied ahead := by
    obtain ⟨reserved, queued, asked⟩ := h.emptied ahead
    refine ⟨fun e mem => reserved e (List.mem_of_mem_eraseP mem), queued, fun r mem => asked r ?_⟩
    rw [Pledge.heard_get, if_pos rfl] at mem
    exact List.mem_of_mem_tail mem

/-- A message that gives no place back leaves the lane. -/
theorem Pledge.Keeps.heard {msg : LaneMessage} {rest : List LaneMessage} (waits : k.handed[i] = msg :: rest)
    (kind : ∀ r, msg.returns r = false) : k.Keeps env i (k.heard i) where
  resets := rfl
  owes _ r := by
    refine Nat.add_le_add_left ?_ _
    rw [Pledge.heard_get, if_pos rfl]
    simp [waits, kind r]
  asks _ r asked := by
    rw [Pledge.heard_get, if_pos rfl] at asked
    exact List.mem_of_mem_tail asked

/-- What is handed to one lift counts for no other. -/
theorem Pledge.Keeps.elsewhere {j : LiftNo} (other : i ≠ j) (ms : List LaneMessage) : k.Keeps env i { k with handed := k.handed.set j ms } := by
  have same : (k.handed.set j ms)[i] = k.handed[i] := (vector_set_get ..).trans (if_neg other)
  exact ⟨rfl, fun _ r => by simp only [Pledge.owes, same]; exact Nat.le_refl _, fun _ r asked => same ▸ asked⟩

/-- The lift takes the oldest message of a lane, and stays in account with the lane (R76, R79 to R82). -/
theorem Lift.Accounts.heard (h : y.Accounts l i k) {msg : LaneMessage} {rest : List LaneMessage} (waits : k.handed[i] = msg :: rest)
    (deaf : env.discards[i] = decide (y.resetsPending < k.resets)) (now : Reading) : (y.hears now l msg).Accounts l i (k.heard i) := by
  have unpaid (kind : ∀ r, msg.returns r = false) : y.Accounts l i (k.heard i) := h.kept deaf (.heard waits kind)
  cases msg with
  | placeRequest n =>
    have pays : y.Pays l (y.takeRequest now l n) := Lift.takeRequest_pays now l n
    refine ⟨fun due r => ?_, fun ahead => ?_⟩
    · have := (unpaid fun r => by simp [LaneMessage.returns]).accounted (pays.resets ▸ due) r
      have := pays.places r
      simp only [Lift.hears]
      omega
    · exact absurd (waits ▸ List.mem_cons_self) ((h.emptied (pays.resets ▸ ahead)).2.2 n)
  | passage n =>
    have returned := h.returned waits (n := n) fun r => by simp [LaneMessage.returns]
    exact (returned.balanced Lift.enters_balances).balanced Lift.arbiter_balances
  | release n =>
    have returned := h.returned waits (n := n) fun r => by simp [LaneMessage.returns]
    exact returned.balanced Lift.arbiter_balances
  | leave n =>
    exact ((unpaid fun r => by simp [LaneMessage.returns]).balanced (Lift.unqueue_balances l n)).balanced Lift.arbiter_balances
  | freePassage => exact (unpaid fun r => by simp [LaneMessage.returns]).balanced Lift.enters_balances
  | intrusion => exact (unpaid fun r => by simp [LaneMessage.returns]).balanced Lift.enters_balances

/-! ### The lift's own events -/

theorem Lift.pulse_balances : y.Balances l y.pulse := by
  by_cases running : y.state = .running
  · rw [Lift.pulse_running running]
    have lowered : y.Balances l { y with occupancy := y.occupancy - y.seatsPerCarrier } := .of_same fun _ => id
    exact lowered.trans Lift.arbiter_balances
  · rw [Lift.pulse_ignored running]
    exact .refl l y

theorem Lift.stateChanged_balances (was : Bool) : y.Balances l (y.stateChanged was) := by
  unfold Lift.stateChanged
  split
  · exact .of_same nofun
  · exact (Lift.Balances.of_same (y := y) (z := y.handChange true) fun _ => id).trans Lift.arbiter_balances
  · exact .refl l y

theorem Lift.configure_balances (f : LiftForm) : y.Balances l (y.configure f) := by
  have acted : y.Balances l ((f.stored y).stateChanged y.inOperation) :=
    (Lift.Balances.of_same (y := y) (z := f.stored y) fun _ => id).trans (Lift.stateChanged_balances _)
  unfold Lift.configure
  dsimp only
  split
  · exact acted.trans Lift.arbiter_balances
  · exact acted

/-! ### The answers of a lift, taken by the lane -/

/-- The lift once the lane has taken its oldest answer (R79). -/
def Lift.answered (y : Lift) (l : LaneNo) : Lift := { y with answers := y.answers.set l y.answers[l].tail }

theorem Lift.answered_get (y : Lift) (j l : LaneNo) : (y.answered j).answers[l] = if l = j then y.answers[j].tail else y.answers[l] :=
  vector_set_get ..

/-- An answer that hands no place, or one to another lane, leaves the lift. -/
theorem Lift.answered_balances {j : LaneNo} {answer : LiftAnswer} {rest : List LiftAnswer} (waits : y.answers[j] = answer :: rest)
    (kind : l ≠ j ∨ ∀ n, answer ≠ .place n) : y.Balances l (y.answered j) where
  resets := rfl
  places n := by
    refine Nat.add_le_add_left ?_ _
    rw [Lift.answered_get]
    split
    · next same =>
      subst same
      simp [waits, kind.resolve_left (fun h => h rfl) n]
    · exact Nat.le_refl _
  emptied reserved queued := ⟨reserved, queued⟩

/-- A place that the lane takes is owed for from then on, as if it were given back at once (R78, R82). -/
theorem Lift.Accounts.placed (h : y.Accounts l i k) {n : RequestNo} {rest : List LiftAnswer} (waits : y.answers[l] = .place n :: rest)
    (deaf : env.discards[i] = decide (y.resetsPending < k.resets)) :
    (y.answered l).Accounts l i { k with handed := env.told k.handed i [.release n] } where
  accounted due r := by
    have due : y.resetsPending ≤ k.resets := due
    have stood := h.accounted due r
    have same : (y.answered l).reservations = y.reservations := rfl
    by_cases ahead : y.resetsPending < k.resets
    · have none : y.reservations.count { lane := l, request := r } = 0 :=
        List.count_eq_zero.2 fun mem => (h.emptied ahead).1 _ mem rfl
      rw [same, none]
      exact Nat.zero_le _
    · have heard : env.discards[i] = false := by simp [deaf, ahead]
      simp only [waits, List.count_cons, Pledge.owes, beq_iff_eq, LiftAnswer.place.injEq] at stood
      have returned : [LaneMessage.release n].countP (·.returns r) = if n = r then 1 else 0 := by simp [LaneMessage.returns]
      simp only [same, Lift.answered_get, if_true, waits, List.tail_cons, Pledge.owes, LaneEnv.told_get, heard, and_self, List.countP_append,
        returned]
      omega
  emptied ahead := by
    obtain ⟨reserved, queued, asked⟩ := h.emptied ahead
    refine ⟨reserved, queued, fun r mem => asked r ?_⟩
    simpa only [LaneEnv.told_get, List.mem_append, List.mem_ite_nil_right, List.mem_singleton, reduceCtorEq, and_false, or_false] using mem

/-! ### The station resets (R8, R66, R87) -/

/-- The lane takes a reset that the lift has taken before it, or has still to take (R66; log entries 33, 51). -/
theorem Lift.Accounts.laneReset (h : y.Accounts l i k) (waits : k.resets ≠ 0) :
    y.Accounts l i { k with held := none, resets := k.resets - 1 } where
  accounted due r := by
    have due : y.resetsPending ≤ k.resets - 1 := due
    have none : y.reservations.count { lane := l, request := r } = 0 :=
      List.count_eq_zero.2 fun mem => (h.emptied (by omega)).1 _ mem rfl
    omega
  emptied ahead := h.emptied (lt_of_lt_of_le ahead (Nat.sub_le ..))

/-- A lift that holds nothing and has been handed nothing is in account (R87). -/
theorem Lift.Accounts.of_empty (reservations : y.reservations = []) (holdQueue : y.holdQueue = []) (handed : k.handed[i] = []) :
    y.Accounts l i k where
  accounted _ r := by simp [reservations]
  emptied _ := by
    rw [reservations, holdQueue, handed]
    exact ⟨nofun, nofun, nofun⟩

theorem Lift.Accounts.resetStarted (h : y.Accounts l i k) {resets : Nat} (same : z.reservations = y.reservations) (queue : z.holdQueue = y.holdQueue)
    (answers : z.answers = y.answers) (lift : z.resetsPending = y.resetsPending + 1) (lane : resets = k.resets + 1) :
    z.Accounts l i { k with resets := resets } where
  accounted due r := by
    rw [same, answers]
    exact h.accounted (by simpa [lift, lane] using due) r
  emptied ahead := by
    rw [same, queue]
    exact h.emptied (by simpa [lift, lane] using ahead)

end

/-! ### The law of the places, state by state -/

section
variable {s t u : State} {l : LaneNo} {i : LiftNo} {env : LaneEnv} {x : Lane}

theorem State.PlaceLaw.congr (law : s.PlaceLaw) (lanes : t.lanes = s.lanes) (lifts : t.lifts = s.lifts) : t.PlaceLaw :=
  State.placeLaw_iff.2 fun l i => by
    rw [State.lane_ext lanes, State.lift_ext lifts]
    exact State.placeLaw_iff.1 law l i

theorem State.PlaceLaw.answered {place : Option Nat} {code : ReplyCode} {fields : List Byte} (law : t.PlaceLaw) :
    (t.answer place code fields).PlaceLaw := law.congr (by simp) (by simp)

theorem State.PlaceLaw.jointAnswered {place : Option Nat} {changed flagged : Bool} {store : Settings → Settings} (law : t.PlaceLaw) :
    (t.jointAnswer place changed flagged store).PlaceLaw := law.congr (by simp) (by simp)

/-- The lifts move, each in account with every lane. -/
theorem State.PlaceLaw.lifts (law : s.PlaceLaw) (lanes : ∀ l, (t.lane l).pledge = (s.lane l).pledge)
    (balances : ∀ l i, (s.lift i).Balances l (t.lift i)) : t.PlaceLaw :=
  State.placeLaw_iff.2 fun l i => lanes l ▸ (State.placeLaw_iff.1 law l i).balanced (balances l i)

/-- One lift moves, in account with every lane. -/
theorem State.PlaceLaw.setLift (law : s.PlaceLaw) {y : Lift} (balances : ∀ l, (s.lift i).Balances l y) (lanes : u.lanes = s.lanes := by rfl)
    (lifts : u.lifts = s.lifts := by rfl) : (u.setLift i y).PlaceLaw := by
  refine law.lifts (fun l => congrArg Lane.pledge (State.lane_ext lanes l)) fun l j => ?_
  rw [State.setLift_lift, State.lift_ext lifts]
  split
  · next same => exact same ▸ balances l
  · exact .refl l _

/-- One lane moves, and its pledge to every lift is kept. -/
theorem State.PlaceLaw.setLane (law : s.PlaceLaw)
    (deaf : ∀ i : LiftNo, env.discards[i] = decide ((s.lift i).resetsPending < (s.lane l).resetsPending))
    (keeps : ∀ i, (s.lane l).pledge.Keeps env i x.pledge) (lanes : u.lanes = s.lanes := by rfl) (lifts : u.lifts = s.lifts := by rfl) :
    (u.setLane l x).PlaceLaw :=
  State.placeLaw_iff.2 fun m i => by
    have pair := State.placeLaw_iff.1 law m i
    rw [State.setLane_lift, State.setLane_lane, State.lane_ext lanes, State.lift_ext lifts]
    split
    · next same =>
      subst same
      exact pair.kept (deaf i) (keeps i)
    · exact pair

/-- One lane moves, in nothing that counts for the lifts. -/
theorem State.PlaceLaw.aside (law : s.PlaceLaw) (same : x.pledge = (s.lane l).pledge := by rfl) (lanes : u.lanes = s.lanes := by rfl)
    (lifts : u.lifts = s.lifts := by rfl) : (u.setLane l x).PlaceLaw :=
  law.setLane (State.laneEnv_discards s l) (fun _ => .of_eq same) lanes lifts

/-- One event at a lane, by which its pledge to every lift is kept (R43). -/
theorem State.PlaceLaw.event (law : s.PlaceLaw) {f : LaneEnv → Lane → Lane}
    (keeps : ∀ env i, (s.lane l).pledge.Keeps env i (f env (s.lane l)).pledge) (lanes : u.lanes = s.lanes := by rfl)
    (lifts : u.lifts = s.lifts := by rfl) : (u.laneEvent l f).PlaceLaw := by
  refine law.setLane (env := u.laneEnv l) (fun j => ?_) (fun j => ?_) lanes lifts
  · rw [State.laneEnv_discards, State.lane_ext lanes, State.lift_ext lifts]
  · rw [Lane.settle_pledge, State.lane_ext lanes]
    exact keeps _ j

/-- A lift takes the oldest message of a lane (R76, R79 to R82). -/
theorem State.PlaceLaw.heard (law : s.PlaceLaw) {msg : LaneMessage} {rest : List LaneMessage} (waits : (s.lane l).toLifts[i] = msg :: rest)
    (now : Reading) : (s.liftTakes l i ((s.lift i).hears now l msg)).PlaceLaw :=
  State.placeLaw_iff.2 fun m j => by
    have pair := State.placeLaw_iff.1 law m j
    have deaf := State.laneEnv_discards s m j
    rw [State.liftTakes, State.setLift_lane, State.setLane_lane, State.setLift_lift]
    by_cases lane : m = l
    · subst lane
      rw [if_pos rfl]
      by_cases lift : j = i
      · subst lift
        rw [if_pos rfl]
        exact pair.heard waits deaf now
      · rw [if_neg lift]
        exact pair.kept deaf (.elsewhere lift _)
    · rw [if_neg lane]
      split
      · next lift =>
        subst lift
        exact pair.balanced (Lift.hears_balances now msg lane)
      · exact pair

/-- An answer that hands no place is taken by its lane (R109, R110). -/
theorem State.PlaceLaw.dropAnswer (law : s.PlaceLaw) {answer : LiftAnswer} {rest : List LiftAnswer}
    (waits : (s.lift i).answers[l] = answer :: rest) (kind : ∀ n, answer ≠ .place n) : (s.dropAnswer l i).PlaceLaw :=
  law.setLift fun _ => Lift.answered_balances waits (.inr kind)

/-- A place is taken by its lane (R108). -/
theorem State.PlaceLaw.placed (law : s.PlaceLaw) {n : RequestNo} {rest : List LiftAnswer} (waits : (s.lift i).answers[l] = .place n :: rest) :
    ((s.dropAnswer l i).laneEvent l fun env x => x.takePlace env i n).PlaceLaw :=
  State.placeLaw_iff.2 fun m j => by
    have pair := State.placeLaw_iff.1 law m j
    have dropped : (s.dropAnswer l i).lift j = if j = i then (s.lift i).answered l else s.lift j := State.setLift_lift ..
    have deaf (k : LiftNo) : ((s.dropAnswer l i).laneEnv l).discards[k] = decide ((s.lift k).resetsPending < (s.lane l).resetsPending) := by
      rw [State.laneEnv_discards, State.dropAnswer, State.setLift_lift]
      split
      · next same => subst same; rfl
      · rfl
    rw [State.laneEvent, State.setLane_lift, State.setLane_lane, dropped]
    by_cases lane : m = l
    · subst lane
      rw [if_pos rfl, Lane.settle_pledge]
      have taken (k : LiftNo) := Lane.takePlace_pledge (env := (s.dropAnswer m i).laneEnv m) (i := k) (x := s.lane m) i n
      by_cases lift : j = i
      · subst lift
        rw [if_pos rfl]
        exact (pair.placed waits (deaf j)).kept (deaf j) (taken j)
      · rw [if_neg lift]
        exact pair.kept (deaf j) ((Pledge.Keeps.told i [.release n] fun _ _ _ => .inl rfl).trans (taken j))
    · rw [if_neg lane]
      split
      · next lift =>
        subst lift
        exact pair.balanced (Lift.answered_balances waits (.inl lane))
      · exact pair

end

/-! ### Each command at its lane -/

section
variable {s : State} (l : LaneNo) (i : LiftNo) (law : s.PlaceLaw)
include law

theorem execLaneDayOpen_placeLaw : Answers State.PlaceLaw (execLaneDayOpen l s) := by
  unfold execLaneDayOpen
  split
  · exact .of (law.event fun _ _ => Lane.rederived_pledge rfl)
  · exact .of law

theorem execLaneDayClose_placeLaw : Answers State.PlaceLaw (execLaneDayClose l s) := by
  unfold execLaneDayClose
  split
  · exact .of (law.event fun _ _ => Lane.rederived_pledge rfl)
  · exact .of law

theorem State.takeMode_placeLaw (kind : RequestKind) (mode : ConfiguredMode) : (s.takeMode l kind mode).PlaceLaw := by
  unfold State.takeMode
  split
  · exact law
  · next taken =>
    obtain ⟨-, -, rfl⟩ := State.takeRequest_eq_some.1 taken
    exact State.PlaceLaw.jointAnswered (law.event fun _ _ => Lane.setMode_pledge mode)

theorem execLaneFaultClear_placeLaw : Answers State.PlaceLaw (execLaneFaultClear l s) := by
  unfold execLaneFaultClear
  split
  · exact .of law
  · next taken =>
    obtain ⟨-, -, rfl⟩ := State.takeRequest_eq_some.1 taken
    exact .of (State.PlaceLaw.jointAnswered (law.event fun _ _ => Lane.clearFaults_pledge))

theorem execLaneConfig_placeLaw : Answers State.PlaceLaw (execLaneConfig l s) := by
  unfold execLaneConfig
  split
  · exact .of law
  · next r _ taken =>
    obtain ⟨-, -, rfl⟩ := State.takeRequest_eq_some.1 taken
    have served : (s.dropNextFor (.lane l)).PlaceLaw := law.congr rfl rfl
    split
    · exact .of served.answered
    · next primary secondary _ =>
      split
      · exact .of served.answered
      · exact .of (State.PlaceLaw.answered (law.event fun _ _ => Lane.remap_pledge primary secondary))

theorem execPresenceDebounceExpiry_placeLaw : Answers State.PlaceLaw (execPresenceDebounceExpiry l s) := by
  unfold execPresenceDebounceExpiry
  split
  · refine .of (law.event fun _ _ => ?_)
    dsimp only
    split
    · exact Lane.rederived_pledge rfl
    · exact Lane.rederived_pledge (x := s.lane l) rfl
  · exact .of law

theorem execLatchSenseChange_placeLaw (released : Bool) : Answers State.PlaceLaw (execLatchSenseChange l released s) := by
  unfold execLatchSenseChange
  split
  · exact .of law
  · exact .of (law.event fun _ _ => .of_eq rfl)

theorem execDriveWindowExpiry_placeLaw : Answers State.PlaceLaw (execDriveWindowExpiry l s) := by
  unfold execDriveWindowExpiry
  split
  · exact .of (law.event fun _ _ => Lane.rederived_pledge (x := s.lane l) rfl)
  · exact .of law

theorem execReleaseWatchExpiry_placeLaw : Answers State.PlaceLaw (execReleaseWatchExpiry l s) := by
  unfold execReleaseWatchExpiry
  split
  · exact .of (law.event fun _ _ => Lane.rederived_pledge (x := s.lane l) rfl)
  · exact .of law

theorem execTap_placeLaw (frame : List Byte) : Answers State.PlaceLaw (execTap l frame s) := by
  unfold execTap
  split
  · exact .of (law.event fun _ _ => .of_eq (Lane.tapArrives_pledge _))
  · exact .of law.aside
  · exact .of law
  · exact .of law

theorem execWaitingTapTake_placeLaw : Answers State.PlaceLaw (execWaitingTapTake l s) := by
  unfold execWaitingTapTake
  split
  · exact .of law
  · exact .of (law.event fun _ _ => .of_eq Lane.takeEmptied_pledge)

theorem execKey_placeLaw (frame : List Byte) : Answers State.PlaceLaw (execKey l frame s) := by
  unfold execKey
  split
  · exact .of (law.event fun _ _ => Lane.turnKey_pledge _)
  · exact .of law.aside
  · exact .of law
  · exact .of law

theorem execLaneFrameDrop_placeLaw (frame : List Byte) : Answers State.PlaceLaw (execLaneFrameDrop l frame s) := by
  unfold execLaneFrameDrop
  split
  · exact .of law.aside
  all_goals exact .of law

theorem execShowSend_placeLaw (receiving : Bool) : Answers State.PlaceLaw (execShowSend l receiving s) := by
  unfold execShowSend
  dsimp only
  split
  · exact .of law
  · exact .of law.aside

theorem execRotation_placeLaw (active : Bool) : Answers State.PlaceLaw (execRotation l active s) := by
  cases counted : (s.lane l).rotationLine.counts active with
  | false =>
    rw [show execRotation l active s = _ from exec_rotation_uncounted counted]
    exact .of law.aside
  | true =>
    rw [show execRotation l active s = _ from exec_rotation_counted counted]
    exact .of (law.setLane (State.laneEnv_discards s l) fun _ =>
      Lane.rotates_pledge (x := { s.lane l with rotationLine := (s.lane l).rotationLine.takes active }))

theorem execPassageWindowExpiry_placeLaw : Answers State.PlaceLaw (execPassageWindowExpiry l s) := by
  unfold execPassageWindowExpiry
  split
  · refine .of (law.event fun _ _ => ?_)
    split
    · next held => exact Lane.windowExpires_pledge held
    · exact .refl ..
  · exact .of law

theorem execHoldTimeoutExpiry_placeLaw : Answers State.PlaceLaw (execHoldTimeoutExpiry l s) := by
  unfold execHoldTimeoutExpiry
  split
  · next due =>
    refine .of (law.event fun _ _ => ?_)
    split
    · next a held =>
      have phase : a.phase = some .hold := by
        simp only [Lane.deadlineDue, held, Option.any_some, Bool.and_eq_true, decide_eq_true_eq] at due
        exact due.1
      exact Lane.holdExpires_pledge held phase
    · exact .refl ..
  · exact .of law

theorem execPassStatusCancellation_placeLaw : Answers State.PlaceLaw (execPassStatusCancellation l s) := by
  unfold execPassStatusCancellation
  split
  · exact .of law
  · exact .of (law.event fun _ _ => Lane.takeCancellation_pledge _)

theorem execNoticeRaise_placeLaw (source : RaiseSource) : Answers State.PlaceLaw (execNoticeRaise source s) := by
  unfold execNoticeRaise
  split
  · exact .of law
  · next rest _ =>
    cases source with
    | lane l =>
      have relieved : (s.setLane l { s.lane l with raises := rest }).PlaceLaw := law.aside
      exact .of (relieved.congr rfl rfl)
    | _ => exact .of (law.congr rfl rfl)

theorem execPassageRecordTake_placeLaw (owner : RecordOwner) : Answers State.PlaceLaw (execPassageRecordTake owner s) := by
  unfold execPassageRecordTake
  split
  · exact .of law
  · next rest _ =>
    cases owner with
    | lane l =>
      have relieved : (s.setLane l { s.lane l with records := rest }).PlaceLaw := law.aside
      exact .of (relieved.congr rfl rfl)
    | _ => exact .of (law.congr rfl rfl)

theorem execConfig_placeLaw : Answers State.PlaceLaw (execConfig (.lane l) s) := by
  unfold execConfig
  dsimp only
  split
  · exact .of law
  · next taken =>
    obtain ⟨-, -, rfl⟩ := State.takeRequest_eq_some.1 taken
    exact .of (State.PlaceLaw.jointAnswered law.aside)

/-! ### The row operations of a lane -/

theorem State.rowOpTaken_placeLaw : ((s.granted (.lane l)).dropRowOp l).PlaceLaw := law.aside

theorem execPassageCommit_placeLaw : Answers State.PlaceLaw (execPassageCommit l s) := by
  unfold execPassageCommit
  repeat' split
  · next taken _ =>
    obtain ⟨-, -, rfl⟩ := State.takeRowOp_eq_some.1 taken
    exact .of ((State.rowOpTaken_placeLaw l law).congr (by simp) (by simp))
  · exact .of law
  · exact .of law

theorem execHeadRecord_placeLaw : Answers State.PlaceLaw (execHeadRecord l s) := by
  unfold execHeadRecord
  repeat' split
  · exact .of law
  · next taken _ =>
    obtain ⟨-, -, rfl⟩ := State.takeRowOp_eq_some.1 taken
    exact .of ((State.rowOpTaken_placeLaw l law).congr (by simp) (by simp))
  · exact .of law

theorem execClosingRowOperation_placeLaw : Answers State.PlaceLaw (execClosingRowOperation l s) := by
  unfold execClosingRowOperation
  split
  · next taken =>
    obtain ⟨-, -, rfl⟩ := State.takeRowOp_eq_some.1 taken
    exact .of ((State.rowOpTaken_placeLaw l law).congr (by simp) (by simp))
  · exact .of law

/-- A tap is validated only at a lane that holds no admission, so that a grant puts none aside (R91, R99). -/
theorem execValidation_placeLaw (grants : s.GrantLaw) : Answers State.PlaceLaw (execValidation l s) := by
  unfold execValidation
  split
  · exact .of law
  split
  · next uid s' taken =>
    obtain ⟨-, waits, rfl⟩ := State.takeRowOp_eq_some.1 taken
    obtain ⟨rest, ops⟩ := List.head?_eq_some_iff.1 waits
    have free : (s.lane l).admission = none := (grants.ordered l [] rest (.validate uid) ops).1
    have dropped : ((s.granted (.lane l)).dropRowOp l).lane l = { s.lane l with rowOps := (s.lane l).rowOps.tail } :=
      State.setLane_lane_same ..
    have taken := State.rowOpTaken_placeLaw l law
    refine .of ?_
    simp only [State.validate, State.validateServed, State.denyAt, State.grantAt]
    repeat' split
    · exact taken.event fun _ _ => .of_eq (by simp)
    · exact taken.event fun _ _ => .of_eq (by simp)
    · exact taken.event fun _ _ => Lane.grant_pledge _ _ _ _ (by rw [dropped]; exact free)
    · exact taken.event fun _ _ => .of_eq (by simp)
    · exact taken.event fun _ _ => .of_eq rfl
  · exact .of law

/-! ### Between the lanes and the lifts -/

/-- A lift takes a message of a lane (R76, R79 to R82). -/
theorem exec_message_placeLaw {c : Instr} (names : messageTaken c = some (l, i)) : Answers State.PlaceLaw (exec c s) := by
  rcases exec_messageTaken (s := s) names with still | ⟨msg, rest, waits, taken⟩
  · exact still ▸ .of law
  · exact taken ▸ .of (law.heard waits s.timebase)

theorem execPlace_placeLaw : Answers State.PlaceLaw (execPlace l i s) := by
  unfold execPlace
  split
  · next n waits =>
    obtain ⟨rest, answers⟩ := List.head?_eq_some_iff.1 waits
    exact .of (law.placed answers)
  · exact .of law

theorem execHold_placeLaw : Answers State.PlaceLaw (execHold l i s) := by
  unfold execHold
  split
  · next n waits =>
    obtain ⟨rest, answers⟩ := List.head?_eq_some_iff.1 waits
    exact .of ((law.dropAnswer answers nofun).event fun _ _ => Lane.takeHold_pledge i n)
  · exact .of law

theorem execRefusal_placeLaw : Answers State.PlaceLaw (execRefusal l i s) := by
  unfold execRefusal
  split
  · next n waits =>
    obtain ⟨rest, answers⟩ := List.head?_eq_some_iff.1 waits
    exact .of ((law.dropAnswer answers nofun).event fun _ _ => Lane.takeRefusal_pledge i n)
  · exact .of law

theorem execInOperationChange_placeLaw : Answers State.PlaceLaw (execInOperationChange l i s) := by
  unfold execInOperationChange
  split
  · next inOperation _ =>
    have dropped : (s.dropChange l i).PlaceLaw := law.setLift fun _ => .of_same fun _ => id
    exact .of (dropped.event fun _ _ => Lane.takeChange_pledge i inOperation)
  · exact .of law

/-! ### The lifts' own events -/

theorem execCarrierPulse_placeLaw (active : Bool) : Answers State.PlaceLaw (execCarrierPulse i active s) := by
  refine .of (law.setLift fun l => ?_)
  have moved : (s.lift i).Balances l { s.lift i with carrierLine := (s.lift i).carrierLine.takes active } := .of_same fun _ => id
  split
  · exact moved.trans Lift.pulse_balances
  · exact moved

theorem execLiftDebounceExpiry_placeLaw : Answers State.PlaceLaw (execLiftDebounceExpiry i s) := by
  unfold execLiftDebounceExpiry
  dsimp only
  split
  · refine .of (law.setLift fun l => ?_)
    have settled : (s.lift i).Balances l { s.lift i with lineState := (s.lift i).lineState.settled } := .of_same fun _ => id
    exact settled.trans (Lift.stateChanged_balances _)
  · exact .of law

theorem execLiftConfig_placeLaw : Answers State.PlaceLaw (execLiftConfig i s) := by
  unfold execLiftConfig
  split
  · exact .of law
  · next taken =>
    obtain ⟨-, -, rfl⟩ := State.takeRequest_eq_some.1 taken
    dsimp only
    split
    · exact .of (State.PlaceLaw.answered (law.setLift fun _ => Lift.configure_balances _))
    · exact .of (State.PlaceLaw.answered (law.congr rfl rfl))

/-! ### The resets -/

theorem execLaneStationReset_placeLaw : Answers State.PlaceLaw (execLaneStationReset l s) := by
  unfold execLaneStationReset
  split
  · exact .of law
  · next waits =>
    refine .of (State.placeLaw_iff.2 fun m i => ?_)
    have pair := State.placeLaw_iff.1 law m i
    rw [State.laneEvent, State.setLane_lift, State.setLane_lane]
    split
    · next same => subst same; exact pair.laneReset waits
    · exact pair

theorem execLiftStationReset_placeLaw : Answers State.PlaceLaw (execLiftStationReset i s) := by
  unfold execLiftStationReset
  split
  · exact .of law
  · refine .of (State.placeLaw_iff.2 fun l j => ?_)
    have pair := State.placeLaw_iff.1 law l j
    have forgot : Vector.get (s.lanes.map (Lane.forget i)) l = Lane.forget i (s.lane l) := Vector.getElem_map ..
    change Lift.Accounts ((s.setLift i _).lift j) l j (Vector.get (s.lanes.map (Lane.forget i)) l).pledge
    rw [forgot, State.setLift_lift]
    split
    · next same =>
      subst same
      exact .of_empty rfl rfl ((vector_set_get ..).trans (if_pos rfl))
    · next other => exact pair.kept (State.laneEnv_discards s l j) (.elsewhere other [])

theorem execStationReset_placeLaw : Answers State.PlaceLaw (execStationReset s) := by
  unfold execStationReset
  split
  · exact .of law
  · refine .of (State.placeLaw_iff.2 fun l i => ?_)
    rw [State.startReset_lane, State.startReset_lift]
    exact (State.placeLaw_iff.1 law l i).resetStarted rfl rfl rfl rfl rfl

omit law in
theorem execPowerOnReset_placeLaw : Answers State.PlaceLaw (execPowerOnReset s) := by
  refine .of (State.placeLaw_iff.2 fun l i => ?_)
  rw [execPowerOnReset_lift rfl, execPowerOnReset_lane rfl]
  exact .of_empty rfl rfl (by simp [Lane.pledge, Lane.powerOn])

end

/-- Every command keeps each lift in account with each lane. -/
theorem exec_placeLaw {c : Instr} {s t : State} (grants : s.GrantLaw) (law : s.PlaceLaw) (h : exec c s = .next t) : t.PlaceLaw := by
  by_cases still : Part.lanes ∉ Part.writtenBy c ∧ Part.lifts ∉ Part.writtenBy c
  · exact law.congr (exec_frame h .lanes still.1) (exec_frame h .lifts still.2)
  suffices keeps : Answers State.PlaceLaw (exec c s) by rwa [h, answers_next] at keeps
  cases c
  case powerOnReset => exact execPowerOnReset_placeLaw
  case stationReset => exact execStationReset_placeLaw law
  case laneStationReset => exact execLaneStationReset_placeLaw _ law
  case liftStationReset => exact execLiftStationReset_placeLaw _ law
  case laneDayOpen => exact execLaneDayOpen_placeLaw _ law
  case laneDayClose => exact execLaneDayClose_placeLaw _ law
  case laneRelease => exact .of (State.takeMode_placeLaw _ law _ _)
  case laneLock => exact .of (State.takeMode_placeLaw _ law _ _)
  case laneFaultClear => exact execLaneFaultClear_placeLaw _ law
  case laneConfig => exact execLaneConfig_placeLaw _ law
  case presentLineChange => exact .of law.aside
  case presenceDebounceExpiry => exact execPresenceDebounceExpiry_placeLaw _ law
  case latchSenseChange => exact execLatchSenseChange_placeLaw _ law _
  case driveWindowExpiry => exact execDriveWindowExpiry_placeLaw _ law
  case releaseWatchExpiry => exact execReleaseWatchExpiry_placeLaw _ law
  case tap => exact execTap_placeLaw _ law _
  case key => exact execKey_placeLaw _ law _
  case laneFrameDrop => exact execLaneFrameDrop_placeLaw _ law _
  case waitingTapTake => exact execWaitingTapTake_placeLaw _ law
  case validation => exact execValidation_placeLaw _ law grants
  case showSend => exact execShowSend_placeLaw _ law _
  case showSent => exact .of law.aside
  case rotation => exact execRotation_placeLaw _ law _
  case passageCommit => exact execPassageCommit_placeLaw _ law
  case headRecord => exact execHeadRecord_placeLaw _ law
  case closingRowOperation => exact execClosingRowOperation_placeLaw _ law
  case passageWindowExpiry => exact execPassageWindowExpiry_placeLaw _ law
  case holdTimeoutExpiry => exact execHoldTimeoutExpiry_placeLaw _ law
  case passStatusCancellation => exact execPassStatusCancellation_placeLaw _ law
  case placeRequest | liftPassage | release | leave | liftFreePassage | liftIntrusion => exact exec_message_placeLaw _ _ law rfl
  case place => exact execPlace_placeLaw _ _ law
  case hold => exact execHold_placeLaw _ _ law
  case refusal => exact execRefusal_placeLaw _ _ law
  case inOperationChange => exact execInOperationChange_placeLaw _ _ law
  case carrierPulse => exact execCarrierPulse_placeLaw _ law _
  case liftLineChange => exact .of (law.setLift fun _ => .of_same fun _ => id)
  case liftDebounceExpiry => exact execLiftDebounceExpiry_placeLaw _ law
  case liftConfig => exact execLiftConfig_placeLaw _ law
  case noticeRaise => exact execNoticeRaise_placeLaw law _
  case passageRecordTake => exact execPassageRecordTake_placeLaw law _
  case config owner =>
    cases owner
    case lane l => exact execConfig_placeLaw l law
    all_goals exact absurd (by simp [Part.writtenBy]) still
  all_goals exact absurd (by simp [Part.writtenBy]) still

theorem State.tick_placeLaw {s : State} (law : s.PlaceLaw) : s.tick.PlaceLaw := by
  refine law.lifts (fun l => ?_) fun l i => ?_
  · rw [State.tick_lane]
    rfl
  · rw [State.tick_lift]
    exact .of_same fun _ => id

theorem step_placeLaw {s t : State} (grants : s.GrantLaw) (law : s.PlaceLaw) (h : step s = .next t) : t.PlaceLaw := by
  rcases step_cases h with rfl | ⟨c, rest, h⟩
  · exact State.tick_placeLaw law
  · have law : State.PlaceLaw { s with pending := rest } := law.congr rfl rfl
    exact exec_placeLaw (State.grantLaw_pending grants) law h

end Sys2Proof.Machine

open Sys2Proof Sys2Proof.Machine

/-- Settles O15: each lift by what a command can do to it, and the places of each lane and lift by what the lane owes and the lift has handed out. -/
theorem liftLawKept : Obligations.LiftLawKept := ⟨fun _ _ => step_liftLaw, fun _ _ => step_placeLaw⟩
end

section
set_option Elab.async false
/-! What passes between a lane and a lift: the messages that the lift takes, and the answers and changes of operation that the lane takes (R73, R74, R76 to R85,
R107 to R110). -/
namespace Sys2Proof.Machine

/-! ### A lift takes a message (R76, R79 to R82) -/

/-- The command by which a lift takes a message. -/
def LaneMessage.command (m : LaneMessage) (l : LaneNo) (i : LiftNo) : Instr :=
  match m with
  | .placeRequest _ => .placeRequest l i
  | .passage _ => .liftPassage l i
  | .release _ => .release l i
  | .leave _ => .leave l i
  | .freePassage => .liftFreePassage l i
  | .intrusion => .liftIntrusion l i

section
variable {s u : State} {l : LaneNo} {i : LiftNo}

theorem exec_command {m : LaneMessage} {rest : List LaneMessage} (waits : (s.lane l).toLifts[i] = m :: rest)
    (left : u = s.setLane l { s.lane l with toLifts := (s.lane l).toLifts.set i rest }) :
    exec (m.command l i) s = .next (u.setLift i ((s.lift i).hears s.timebase l m)) := by
  subst left
  have taken (y : Lift) : s.liftTakes l i y = (s.setLane l { s.lane l with toLifts := (s.lane l).toLifts.set i rest }).setLift i y := by
    rw [State.liftTakes, waits, List.tail_cons]
  rw [← taken]
  have head : s.messageTo l i = some m := by rw [State.messageTo, waits, List.head?_cons]
  cases m <;>
    simp only [LaneMessage.command, exec, execPlaceRequest, execLiftPassage, execRelease, execLeave, execLiftFreePassage,
      execLiftIntrusion, head] <;> rfl

end

section
variable {x : Lift} {now : Reading} {l : LaneNo} {n : RequestNo}

theorem Lift.takeRequest_refused (out : x.inOperation = false) : x.takeRequest now l n = x.tell l (.refusal n) := if_pos (by simp [out])

theorem Lift.takeRequest_placed (op : x.inOperation = true)
    (room : x.corralLimit = 0 ∨ (x.holdQueue = [] ∧ x.occupancy + x.reservations.length < x.corralLimit)) :
    x.takeRequest now l n = x.givePlace l n := by
  have placed : (decide (x.corralLimit = 0) || (x.holdQueue.isEmpty && x.hasRoom)) = true := by
    rcases room with unpaced | ⟨free, room⟩
    · simp [unpaced]
    · simp [free, Lift.hasRoom_iff.2 (.inr room)]
  rw [Lift.takeRequest, if_neg (by simp [op]), if_pos placed]

theorem Lift.takeRequest_queued (op : x.inOperation = true) (paced : x.corralLimit ≠ 0)
    (waits : x.holdQueue ≠ [] ∨ x.corralLimit ≤ x.occupancy + x.reservations.length) : x.takeRequest now l n =
      Lift.tell { x with holdQueue := x.holdQueue ++ [{ lane := l, request := n, holdStart := now }] } l (.hold n) := by
  have queued : ¬ (decide (x.corralLimit = 0) || (x.holdQueue.isEmpty && x.hasRoom)) = true := by
    simp only [Bool.or_eq_true, decide_eq_true_eq, Bool.and_eq_true, List.isEmpty_iff, Lift.hasRoom_iff]
    rintro (unpaced | ⟨free, unpaced | room⟩)
    · exact paced unpaced
    · exact paced unpaced
    · exact waits.elim (· free) (Nat.not_le.2 room)
  rw [Lift.takeRequest, if_neg (by simp [op]), if_neg queued]

end

/-! ### A lane takes an answer (R107 to R110) -/

section
variable {s u : State} {l : LaneNo} {i : LiftNo} {x : Lane} {env : LaneEnv} {a : Admission} {n : RequestNo}

/-- What a lift has handed a lane counts for nothing that the lane reads of the lifts (R87). -/
theorem State.setLift_laneEnv {y : Lift} (same : y.resetsPending = (s.lift i).resetsPending) : (s.setLift i y).laneEnv l = s.laneEnv l := by
  have discards : (s.lifts.set i y).map (fun x => decide (x.resetsPending < (s.lane l).resetsPending))
      = s.lifts.map fun x => decide (x.resetsPending < (s.lane l).resetsPending) := by
    have read : decide ((s.lift i).resetsPending < (s.lane l).resetsPending)
        = (s.lifts.map fun x => decide (x.resetsPending < (s.lane l).resetsPending))[i] := (State.laneEnv_discards s l i).symm
    rw [Vector.map_set, same, read]
    exact Vector.set_getElem_self ..
  exact congrArg (fun d => ({ s.laneEnv l with discards := d } : LaneEnv)) discards

theorem Admission.awaits_iff : a.awaits i n = true ↔ a.lift = i ∧ a.request = n := by simp [Admission.awaits]

theorem Lane.takePlace_current (held : x.admission = some a) (lift : a.lift = i) (number : a.request = n) (locked : a.phase ≠ some .unlocked) :
    x.takePlace env i n = x.unlockFor env a := by
  simp only [Lane.takePlace, held]
  exact if_pos ⟨Admission.awaits_iff.2 ⟨lift, number⟩, locked⟩

theorem Lane.takePlace_stale (stale : ∀ a, x.admission = some a → a.lift = i → a.request = n → a.phase = some .unlocked) :
    x.takePlace env i n = x.tell env i (.release n) := by
  unfold Lane.takePlace
  split
  · next a held =>
    refine if_neg fun ⟨awaited, locked⟩ => locked ?_
    obtain ⟨lift, number⟩ := Admission.awaits_iff.1 awaited
    exact stale a held lift number
  · rfl

theorem Lane.takeHold_current (held : x.admission = some a) (lift : a.lift = i) (number : a.request = n) (waits : a.phase = none) :
    x.takeHold env i n = x.holdFor env a := by
  simp only [Lane.takeHold, held]
  exact if_pos ⟨Admission.awaits_iff.2 ⟨lift, number⟩, waits⟩

theorem Lane.takeHold_stale (stale : ∀ a, x.admission = some a → a.lift = i → a.request = n → a.phase ≠ none) :
    x.takeHold env i n = x.tell env i (.leave n) := by
  unfold Lane.takeHold
  split
  · next a held =>
    refine if_neg fun ⟨awaited, waits⟩ => ?_
    obtain ⟨lift, number⟩ := Admission.awaits_iff.1 awaited
    exact stale a held lift number waits
  · rfl

theorem Lane.takeRefusal_current (held : x.admission = some a) (lift : a.lift = i) (number : a.request = n) :
    x.takeRefusal env i n = (x.cancel env).show .red .liftClosed a.headsRemaining := by
  simp only [Lane.takeRefusal, held]
  exact if_pos (Admission.awaits_iff.2 ⟨lift, number⟩)

theorem Lane.takeRefusal_stale (stale : ∀ a, x.admission = some a → a.lift = i → a.request ≠ n) : x.takeRefusal env i n = x := by
  unfold Lane.takeRefusal
  split
  · next a held =>
    refine if_neg fun awaited => ?_
    obtain ⟨lift, number⟩ := Admission.awaits_iff.1 awaited
    exact stale a held lift number
  · rfl

/-- The oldest answer of the lift leaves it, and the lane takes it as one event. -/
theorem State.answered_event {answer : LiftAnswer} {rest : List LiftAnswer} (waits : (s.lift i).answers[l] = answer :: rest)
    (left : u = s.setLift i { s.lift i with answers := (s.lift i).answers.set l rest }) (f : LaneEnv → Lane → Lane) :
    (s.dropAnswer l i).laneEvent l f = u.setLane l (f (s.laneEnv l) (s.lane l)).settle := by
  have dropped : s.dropAnswer l i = u := by rw [left, State.dropAnswer, waits, List.tail_cons]
  have env : u.laneEnv l = s.laneEnv l := left ▸ State.setLift_laneEnv rfl
  have lane : u.lane l = s.lane l := left ▸ rfl
  rw [dropped, State.laneEvent, env, lane]

section
variable {rest : List LiftAnswer} (left : u = s.setLift i { s.lift i with answers := (s.lift i).answers.set l rest })
include left

theorem exec_place (waits : (s.lift i).answers[l] = .place n :: rest) :
    exec (.place l i) s = .next (u.setLane l ((s.lane l).takePlace (s.laneEnv l) i n).settle) := by
  simp only [exec, execPlace, waits, List.head?_cons]
  exact congrArg _ (State.answered_event waits left _)

theorem exec_hold (waits : (s.lift i).answers[l] = .hold n :: rest) :
    exec (.hold l i) s = .next (u.setLane l ((s.lane l).takeHold (s.laneEnv l) i n).settle) := by
  simp only [exec, execHold, waits, List.head?_cons]
  exact congrArg _ (State.answered_event waits left _)

theorem exec_refusal (waits : (s.lift i).answers[l] = .refusal n :: rest) :
    exec (.refusal l i) s = .next (u.setLane l ((s.lane l).takeRefusal (s.laneEnv l) i n).settle) := by
  simp only [exec, execRefusal, waits, List.head?_cons]
  exact congrArg _ (State.answered_event waits left _)

end
end
end Sys2Proof.Machine

open Sys2Proof Sys2Proof.Machine

/-- Settles O51: each answer by whether it is current, and what the lane then makes of it. -/
theorem liftAnswersTaken : Obligations.LiftAnswersTaken := by
  refine ⟨fun s l i n rest u waits left => ⟨fun a held lift number locked => ?_, fun stale => ?_⟩,
    fun s l i n rest u waits left => ⟨fun a held lift number phase => ?_, fun stale => ?_⟩,
    fun s l i n rest u waits left => ⟨fun a held lift number => ?_, fun stale => ?_⟩⟩
  · rw [exec_place left waits, Lane.takePlace_current held lift number locked]
    rfl
  · rw [exec_place left waits, Lane.takePlace_stale stale, State.tell_release]
  · rw [exec_hold left waits, Lane.takeHold_current held lift number phase]
    rfl
  · rw [exec_hold left waits, Lane.takeHold_stale stale, State.tell_leave]
  · rw [exec_refusal left waits, Lane.takeRefusal_current held lift number, State.cancel_lane held]
    rfl
  · rw [exec_refusal left waits, Lane.takeRefusal_stale stale]

/-- Settles O53: each message by what the lift makes of it, and the arbiter by the queue that it serves from the head. -/
theorem liftEventsTaken : Obligations.LiftEventsTaken := by
  refine ⟨fun s l i rest n u left => ⟨fun waits => ?_, fun waits => exec_command waits left, fun waits => exec_command waits left,
    fun waits => exec_command waits left, fun waits => exec_command waits left, fun waits => exec_command waits left⟩,
    fun x => Lift.arbiter_out, fun x op => ?_⟩
  · have taken : exec (.placeRequest l i) s = .next (u.setLift i ((s.lift i).takeRequest s.timebase l n)) := exec_command waits left
    rw [taken]
    refine ⟨fun out => ?_, fun op room => ?_, fun op paced full => ?_⟩
    · rw [Lift.takeRequest_refused out]
      rfl
    · rw [Lift.takeRequest_placed op room]
      rfl
    · rw [Lift.takeRequest_queued op paced full]
      rfl
  · rw [Lift.arbiter_in op]
    exact x.serve_serves x.holdQueue

/-- Settles O54: the line's level by whether it counts, and the pulse by the lift's state. -/
theorem carrierPulsesTaken : Obligations.CarrierPulsesTaken := by
  refine ⟨fun s i idle long => ?_, fun s i active changes short => ?_⟩
  · have pulsed : exec (.carrierPulse i true) s =
        .next (s.setLift i (Lift.pulse { s.lift i with carrierLine := { active := true, inactiveMs := 0 } })) := by
      simp only [exec, execCarrierPulse, PulseLine.counts_iff.2 ⟨rfl, idle, long⟩, if_true, PulseLine.takes_other (p := (s.lift i).carrierLine)
        (active := true) (by simp [idle])]
    rw [pulsed]
    have state : Lift.state { s.lift i with carrierLine := { active := true, inactiveMs := 0 } } = (s.lift i).state := rfl
    exact ⟨fun running => by rw [Lift.pulse_running (state.trans running)], fun other => by rw [Lift.pulse_ignored (state ▸ other)]⟩
  · have uncounted : ¬ (s.lift i).carrierLine.counts active = true := by
      rw [PulseLine.counts_iff]
      rintro ⟨rises, -, long⟩
      rcases short with falls | short
      · exact Bool.false_ne_true (falls.symm.trans rises)
      · omega
    simp only [exec, execCarrierPulse, if_neg uncounted, PulseLine.takes_other changes]
end

section
set_option Elab.async false
/-! The lines and the configuration of a lift, and what a change of operation does at the lift and at each lane (R69 to R71, R73, R74, R83 to R85). -/
namespace Sys2Proof.Machine

/-! ### The state lines (R70, R71) -/

section
variable {s u : State} {i : LiftNo} {r : Routed}

theorem Debounce.lineTakes_other {α : Type} [DecidableEq α] {d : Debounce α} {level : α} (changes : level ≠ d.line) (ms : Nat) :
    d.lineTakes level ms = { d with line := level, remaining := if level = d.debounced then none else some ms } := if_neg changes

theorem exec_liftDebounceExpiry (due : (s.lift i).lineState.remaining = some 0) : exec (.liftDebounceExpiry i) s =
    .next (s.setLift i (Lift.stateChanged { s.lift i with lineState := (s.lift i).lineState.settled } (s.lift i).inOperation)) :=
  if_pos ((Debounce.isDue_iff _).2 due)

/-! ### LIFT_CONFIG (R69) -/

theorem exec_liftConfig_bad (h : s.Routes (.lift i) .liftConfig r) (bad : 1 < (liftForm r.body).enabled) :
    exec (.liftConfig i) s = .next ((s.dropNextFor (.lift i)).answer r.place .badField []) := by
  simp only [exec, execLiftConfig, h.take]
  exact if_neg (by simp [isFlag, bad])

theorem exec_liftConfig_taken (h : s.Routes (.lift i) .liftConfig r) (legal : (liftForm r.body).enabled ≤ 1) : exec (.liftConfig i) s =
    .next (((s.dropNextFor (.lift i)).setLift i ((s.lift i).configure (liftForm r.body))).answer r.place ((liftForm r.body).code (s.lift i)) []) := by
  simp only [exec, execLiftConfig, h.take]
  exact if_pos (by simp [isFlag, legal])

end

section
variable {f : LiftForm} {x : Lift}

theorem LiftForm.clamps_iff : f.clamps = true ↔ 63 < f.resortLift ∨ f.seats = 0 ∨ 12 < f.seats ∨ 999 < f.limit := by
  simp [LiftForm.clamps, or_assoc]

theorem LiftForm.sameConfig_stored : x.sameConfig (f.stored x) = true ↔ f.stored x = x := by
  simp only [Lift.sameConfig, Bool.and_eq_true, decide_eq_true_eq]
  constructor
  · rintro ⟨⟨⟨enabled, resort⟩, seats⟩, limit⟩
    have stored : f.stored x = { x with
        enabled := (f.stored x).enabled, resortLift := (f.stored x).resortLift
        seatsPerCarrier := (f.stored x).seatsPerCarrier, corralLimit := (f.stored x).corralLimit } := rfl
    rw [stored, ← enabled, ← resort, ← seats, ← limit]
  · intro same
    rw [same]
    exact ⟨⟨⟨rfl, rfl⟩, rfl⟩, rfl⟩

theorem LiftForm.code_eq : f.code x = if f.clamps = true then .okClamped else if f.stored x = x then .okNoChange else .ok := by
  simp only [LiftForm.code, LiftForm.sameConfig_stored]

theorem LiftForm.code_clamped_iff : f.code x = .okClamped ↔ f.clamps = true := by
  rw [LiftForm.code_eq]
  repeat' split
  all_goals simp_all

theorem LiftForm.stored_of_code (unchanged : f.code x = .okNoChange) : f.stored x = x := by
  rw [LiftForm.code_eq] at unchanged
  repeat' split at unchanged
  · cases unchanged
  · assumption
  · cases unchanged

theorem LiftForm.code_of_stored (same : f.stored x = x) : f.code x = .okNoChange ∨ f.code x = .okClamped := by
  rw [LiftForm.code_eq, if_pos same]
  split
  · exact .inr rfl
  · exact .inl rfl

theorem LiftForm.code_cases : f.code x = .ok ∨ f.code x = .okNoChange ∨ f.code x = .okClamped := by
  rw [LiftForm.code_eq]
  repeat' split
  · exact .inr (.inr rfl)
  · exact .inr (.inl rfl)
  · exact .inl rfl

end

/-! ### A lane takes a change of operation (R73, R74) -/

section
variable {s u : State} {l : LaneNo} {i : LiftNo} {x : Lane} {env : LaneEnv} {a : Admission} {cause : ServedCause} {new : Option LiftNo}

theorem exec_inOperationChange {inOperation : Bool} {rest : List Bool} (waits : (s.lift i).changes[l] = inOperation :: rest)
    (left : u = s.setLift i { s.lift i with changes := (s.lift i).changes.set l rest }) :
    exec (.inOperationChange l i) s = .next (u.setLane l ((s.lane l).takeChange (s.laneEnv l) i inOperation).settle) := by
  have dropped : s.dropChange l i = u := by rw [left, State.dropChange, waits, List.tail_cons]
  have env : u.laneEnv l = s.laneEnv l := left ▸ State.setLift_laneEnv rfl
  have lane : u.lane l = s.lane l := left ▸ rfl
  simp only [exec, execInOperationChange, waits, List.head?_cons, dropped, State.laneEvent, env, lane]

theorem Lane.takeChange_unmapped {inOperation : Bool} (primary : x.primaryLift ≠ i) (secondary : x.secondaryLift ≠ some i) :
    x.takeChange env i inOperation = { x with liftInOperation := x.liftInOperation.set i inOperation } :=
  if_neg fun mapped => mapped.elim primary secondary

theorem Lane.takeChange_mapped {inOperation : Bool} (mapped : x.primaryLift = i ∨ x.secondaryLift = some i) : x.takeChange env i inOperation =
    Lane.rederiveLift env { x with liftInOperation := x.liftInOperation.set i inOperation } (if inOperation = true then .returned else .closed) :=
  if_pos mapped

/-- The primary while it is in operation, else the secondary while that is, else nothing (R73). -/
theorem Lane.derivedLift_eq (primary : x.liftInOperation[x.primaryLift] = true → new = some x.primaryLift)
    (secondary : x.liftInOperation[x.primaryLift] = false → (x.secondaryLift = none → new = none)
      ∧ ∀ j, x.secondaryLift = some j → (x.liftInOperation[j] = true → new = some j) ∧ (x.liftInOperation[j] = false → new = none)) :
    x.derivedLift = new := by
  unfold Lane.derivedLift
  split
  · next op => exact (primary op).symm
  · next out =>
    obtain ⟨missing, given⟩ := secondary (by simpa using out)
    split
    · next j second =>
      split
      · next op => exact ((given j second).1 op).symm
      · next out => exact ((given j second).2 (by simpa using out)).symm
    · next second => exact (missing second).symm

theorem Lane.rederiveLift_same (same : x.derivedLift = x.servedLift) : x.rederiveLift env cause = x := if_pos same

section
variable (derives : x.derivedLift = new) (changes : new ≠ x.servedLift)
include derives changes

theorem Lane.rederiveLift_free (free : x.admission = none) : x.rederiveLift env cause = Lane.rederive env { x with servedLift := new } := by
  subst derives
  simp only [Lane.rederiveLift, if_neg changes, free]

theorem Lane.rederiveLift_stays (held : x.admission = some a) (stays : servedLiftCancels a new cause = none) :
    x.rederiveLift env cause = Lane.rederive env { x with servedLift := new } := by
  subst derives
  simp only [Lane.rederiveLift, if_neg changes, held, stays]

theorem Lane.rederiveLift_cancels {reason : ShowReason} (held : x.admission = some a) (ends : servedLiftCancels a new cause = some reason)
    {y : Lane} (ended : y = { x.cancel env with servedLift := new }) :
    x.rederiveLift env cause = if y.derived = y.effective then y.show .red reason a.headsRemaining else y.rederive env := by
  subst derives ended
  simp only [Lane.rederiveLift, if_neg changes, held, ends]

end

theorem servedLiftCancels_stays (stays : new = some a.lift ∨ (new = none ∧ cause ≠ .closed)) : servedLiftCancels a new cause = none := by
  rcases stays with rfl | ⟨rfl, other⟩
  · exact if_pos rfl
  · cases cause with
    | closed => exact absurd rfl other
    | remapped => rfl
    | returned => rfl

theorem servedLiftCancels_ends {reason : ShowReason} (ends : (∃ j, new = some j ∧ j ≠ a.lift ∧ reason = .liftChanged)
    ∨ (new = none ∧ cause = .closed ∧ reason = .liftClosed)) : servedLiftCancels a new cause = some reason := by
  rcases ends with ⟨j, rfl, other, rfl⟩ | ⟨rfl, rfl, rfl⟩
  · exact if_neg other
  · rfl

end
end Sys2Proof.Machine

open Sys2Proof Sys2Proof.Machine

/-- Settles O55: a lift's lines and configuration by whether they change its operation, and the change at a lane by what it makes of the served lift. -/
theorem liftLinesAndConfig : Obligations.LiftLinesAndConfig := by
  refine ⟨fun _ => rfl, fun s i lsa lsb e named changes => ?_, fun s i y due settled => ?_, fun s i r f y asks form => ⟨fun bad => ?_, fun legal stored => ?_⟩,
    fun s l i inOperation rest u x waits left held => ?_, fun env x cause new primary secondary => ?_⟩
  · have decoded : e = decodedLines lsa lsb := named.trans (by cases lsa <;> cases lsb <;> rfl)
    subst decoded
    simp only [exec, execLiftLineChange, Debounce.lineTakes_other changes]
  · have event : exec (.liftDebounceExpiry i) s = .next (s.setLift i (y.stateChanged (s.lift i).inOperation)) :=
      settled ▸ exec_liftDebounceExpiry due
    rw [event]
    refine ⟨fun op out => ?_, fun out op => ?_, fun same => ?_⟩
    · rw [op, Lift.stateChanged_leaves out]
      rfl
    · rw [out, Lift.stateChanged_enters op]
      rfl
    · rw [Lift.stateChanged_same same.symm]
  · exact exec_liftConfig_bad asks (form ▸ bad)
  · subst form
    have stored : y = (liftForm r.body).stored (s.lift i) := stored
    refine ⟨_, _, exec_liftConfig_taken asks legal, ?_⟩
    subst stored
    refine ⟨LiftForm.code_clamped_iff.trans LiftForm.clamps_iff, LiftForm.stored_of_code, LiftForm.code_of_stored, LiftForm.code_cases,
      Lift.configure_leaves, Lift.configure_enters, fun op stays => ?_, Lift.configure_out⟩
    rw [Lift.configure_stays (stays.trans op.symm)]
    exact ⟨fun raised => if_pos (limitMakesRoom_iff.2 raised), fun unraised => if_neg (mt limitMakesRoom_iff.1 unraised)⟩
  · have event := exec_inOperationChange waits left
    subst held
    refine ⟨fun first second => ?_, fun mapped => ?_⟩
    · rw [event, Lane.takeChange_unmapped (x := s.lane l) first second]
    · rw [event, Lane.takeChange_mapped (x := s.lane l) mapped]
  · have derives := Lane.derivedLift_eq primary secondary
    refine ⟨fun same => Lane.rederiveLift_same (derives.trans same), fun changes free => Lane.rederiveLift_free derives changes free,
      fun a changes held => ⟨fun stays => Lane.rederiveLift_stays derives changes held (servedLiftCancels_stays stays),
        fun reason ends settled heard => ⟨{ x.cancel env with servedLift := new }, ?_, fun differs => ?_, fun same => ?_⟩⟩⟩
    · rw [Lane.cancel_heard held settled heard]
      rcases a.phase with _ | _ | _ <;> simp
    · exact (Lane.rederiveLift_cancels derives changes held (servedLiftCancels_ends ends) rfl).trans (if_neg differs)
    · exact (Lane.rederiveLift_cancels derives changes held (servedLiftCancels_ends ends) rfl).trans (if_pos same)
end

section
set_option Elab.async false
/-! The validation row operation: the ordered checks, what each outcome makes of the lane and the row, and that no other command begins an admission (R92 to R100,
R105, R107). -/
namespace Sys2Proof.Machine

/-! ### The ordered checks (R93 to R98) -/

theorem validOn_iff {p : Product} {row : PassRow} {d : Nat} :
    validOn p row d = true ↔ p.validFrom ≤ d ∧ d ≤ p.validTo ∧ ∀ e, row.expiryDay = some e → d ≤ e := by
  simp [validOn, and_assoc, Option.all_eq_true]

theorem validOn_eq_false {p : Product} {row : PassRow} {d : Nat}
    (out : d < p.validFrom ∨ p.validTo < d ∨ ∃ e, row.expiryDay = some e ∧ e < d) : validOn p row d = false := by
  rw [← Bool.not_eq_true, validOn_iff]
  rintro ⟨opened, unclosed, unexpired⟩
  rcases out with early | late | ⟨e, given, past⟩
  · omega
  · omega
  · exact Nat.not_lt.2 (unexpired e given) past

/-- The re-ride interval holds the pass off at the lift and on the day of its last passage, until the interval has run (R97). -/
theorem tooSoon_iff {p : Product} {row : PassRow} {lift : LiftNo} {d second : Nat} : tooSoon p row lift d second = true ↔
    ∃ q, row.lastPassage = some q ∧ q.day = d ∧ q.lift = lift ∧ 0 < p.rerideInterval ∧ second < q.second + p.rerideInterval := by
  unfold tooSoon
  split
  · next absent => simp [absent]
  · next q last =>
    have elapsed : 0 < p.rerideInterval → (second - q.second < p.rerideInterval ↔ second < q.second + p.rerideInterval) := by omega
    simp +contextual [last, and_assoc, elapsed]

theorem tooSoon_eq_false {p : Product} {row : PassRow} {lift : LiftNo} {d second : Nat}
    (rested : ∀ q, row.lastPassage = some q → q.day ≠ d ∨ q.lift ≠ lift ∨ p.rerideInterval = 0 ∨ q.second + p.rerideInterval ≤ second) :
    tooSoon p row lift d second = false := by
  rw [← Bool.not_eq_true, tooSoon_iff]
  rintro ⟨q, last, day, same, runs, soon⟩
  have elapsed := ((rested q last).resolve_left (not_not.2 day)).resolve_left (not_not.2 same)
  omega

theorem dayLeft_iff {p : Product} {row : PassRow} {d : Nat} :
    dayLeft p row d = true ↔ p.kind = .season ∨ d ∈ row.consumed ∨ row.consumed.length < p.dayCount := by
  unfold dayLeft
  split
  · next season => simp [season]
  · next multiDay => simp [multiDay]

section
variable {s : State} {uid : Uid} {lift : LiftNo} {slot d : Nat} {row : PassRow} {p : Product}

theorem State.decision_unknown (unknown : lookup s.table.slots uid = none) : s.decision uid lift = .error .unknownPass := by
  simp only [State.decision, unknown]

theorem State.decision_denied {reason : DenyReason} (found : lookup s.table.slots uid = some (slot, row))
    (denied : s.denialOf row lift = some reason) : s.decision uid lift = .error reason := by
  simp only [State.decision, found, denied]

theorem State.decision_granted (found : lookup s.table.slots uid = some (slot, row)) (passes : s.denialOf row lift = none) :
    s.decision uid lift = .ok (slot, row) := by
  simp only [State.decision, found, passes]

/-- A grant is of the row that the lookup finds, once it has passed every check (R93). -/
theorem State.decision_eq_ok : s.decision uid lift = .ok (slot, row) ↔
    lookup s.table.slots uid = some (slot, row) ∧ s.denialOf row lift = none := by
  refine ⟨fun granted => ?_, fun ⟨found, passes⟩ => State.decision_granted found passes⟩
  cases found : lookup s.table.slots uid with
  | none => simp [State.decision_unknown found] at granted
  | some entry =>
    cases denied : s.denialOf entry.2 lift with
    | some reason => simp [State.decision_denied found denied] at granted
    | none =>
      obtain rfl : entry = (slot, row) := by simpa [State.decision_granted found denied] using granted
      exact ⟨rfl, denied⟩

theorem State.denialOf_blocked (blocked : row.status = .blocked) : s.denialOf row lift = some .blocked := by
  simp only [State.denialOf, blocked]

theorem State.denialOf_retired (retired : row.status = .retired) : s.denialOf row lift = some .retired := by
  simp only [State.denialOf, retired]

theorem State.denialOf_undefined (active : row.status = .active) (undefined : (s.product row.product).isDefined = false) :
    s.denialOf row lift = some .noProduct := by
  simp [State.denialOf, active, undefined]

theorem State.denialOf_no_day (active : row.status = .active) (defined : (s.product row.product).isDefined = true)
    (before : s.calendar.currentDay = none) : s.denialOf row lift = some .notValidToday := by
  simp [State.denialOf, active, defined, before]

/-- Checks 5 to 9, on an ACTIVE row of a defined product and a current day (R93). -/
theorem State.denialOf_on_day (active : row.status = .active) (product : p = s.product row.product) (defined : p.isDefined = true)
    (today : s.calendar.currentDay = some d) : s.denialOf row lift =
      if validOn p row d = false then some .notValidToday
      else if p.liftMask.getLsbD (s.lift lift).resortLift = false then some .wrongLift
      else if row.pendingLane ≠ none then some .passInUse
      else if tooSoon p row lift d s.calendar.secondOfDay = true then some .tooSoon
      else if dayLeft p row d = false then some .noDaysLeft
      else none := by
  subst product
  simp [State.denialOf, active, defined, today, Option.isSome_iff_ne_none]

/-- Only an ACTIVE row passes (R94). -/
theorem State.active_of_passes (passes : s.denialOf row lift = none) : row.status = .active := by
  cases status : row.status with
  | active => rfl
  | blocked => simp [State.denialOf_blocked status] at passes
  | retired => simp [State.denialOf_retired status] at passes

end

/-! ### What each outcome makes of the lane and the row (R92, R99, R100) -/

section
variable {s : State} {l : LaneNo} {uid : Uid} {lift : LiftNo} {slot : Nat} {row : PassRow} {reason : DenyReason}

theorem exec_validation (settled : s.table.cancellations[l] = []) (next : s.RowOpNext l (.validate uid)) :
    exec (.validation l) s = .next ((s.rowOpTaken l).validate l uid) := by
  simp only [exec, execValidation, settled, State.takeRowOp_of next.1 next.2]
  rfl

/-- A validation that stands is decided; one that does not stand changes nothing (log entry 1). -/
theorem exec_validation_cases {t : State} (h : exec (.validation l) s = .next t) :
    t = s ∨ ∃ uid, s.RowOpNext l (.validate uid) ∧ t = (s.rowOpTaken l).validate l uid := by
  by_cases stands : s.stands (.validation l)
  · obtain ⟨settled, uid, next⟩ := stands
    rw [exec_validation settled next] at h
    cases h
    exact .inr ⟨uid, next, rfl⟩
  · rw [exec_of_not_stands stands] at h
    cases h
    exact .inl rfl

/-- The decision rests on nothing that the grant of the port or the lane's list changes (R93). -/
theorem State.rowOpTaken_decision : (s.rowOpTaken l).decision uid lift = s.decision uid lift := rfl

theorem State.rowOpTaken_lane_same : (s.rowOpTaken l).lane l = { s.lane l with rowOps := (s.lane l).rowOps.tail } :=
  State.setLane_lane_same ..

theorem State.rowOpTaken_laneEnv : (s.rowOpTaken l).laneEnv l = s.laneEnv l := State.setLane_laneEnv (s := s.granted (.lane l)) rfl

/-- The row and the lane change in one operation (R99). -/
theorem State.grantAt_eq : s.grantAt l lift slot uid row =
    (s.writeRow slot { row with pendingLane := some l }).setLane l
      ((s.lane l).grant (s.laneEnv l) l lift slot uid row.headcount).settle := rfl

theorem State.validate_detached (detached : (s.lane l).effective = .detached) :
    s.validate l uid = s.laneEvent l fun _ x => x.decisionTaken := by
  simp [State.validate, detached, EffectiveState.denial]

theorem State.validate_denied (denies : (s.lane l).effective.denial = some reason) : s.validate l uid = s.denyAt l reason := by
  have other : (s.lane l).effective ≠ .inService := by
    intro inService
    simp [inService, EffectiveState.denial] at denies
  simp only [State.validate, if_neg other, denies]

theorem State.validate_unserved (inService : (s.lane l).effective = .inService) (unserved : (s.lane l).servedLift = none) :
    s.validate l uid = s.denyAt l .noLift := by
  simp only [State.validate, if_pos inService, State.validateServed, unserved]

theorem State.validate_refused (inService : (s.lane l).effective = .inService) (served : (s.lane l).servedLift = some lift)
    (refused : s.decision uid lift = .error reason) : s.validate l uid = s.denyAt l reason := by
  simp only [State.validate, if_pos inService, State.validateServed, served, refused]

theorem State.validate_granted (inService : (s.lane l).effective = .inService) (served : (s.lane l).servedLift = some lift)
    (granted : s.decision uid lift = .ok (slot, row)) : s.validate l uid = s.grantAt l lift slot uid row := by
  simp only [State.validate, if_pos inService, State.validateServed, served, granted]

theorem EffectiveState.denial_eq_none {e : EffectiveState} : e.denial = none ↔ e = .detached ∨ e = .inService := by
  cases e <;> simp [EffectiveState.denial]

/-- A grant at the lane: its counters, the admission in no phase with its first place request, and the tap out of flight (R99, R100, R107). -/
theorem Lane.grant_eq (env : LaneEnv) (heads : Nat) (x : Lane) : x.grant env l lift slot uid heads =
    { x with
      counters := { x.counters with taps := bump 65535 x.counters.taps, grants := bump 65535 x.counters.grants }
      lastRequest := x.lastRequest + 1
      admission := some { slot := slot, uid := uid, lane := l, lift := lift, phase := none, headsTotal := heads, headsPassed := 0,
                          request := x.lastRequest + 1, deadline := none, holdStart := none }
      toLifts := env.told x.toLifts lift [.placeRequest (x.lastRequest + 1)]
      validationInFlight := false
      waitingTap := none
      emptiedTaps := x.emptiedTaps ++ x.waitingTap.toList } := by
  rw [Lane.grant, Lane.requestPlace, Lane.tell_placeRequest]
  rfl

/-- A validation begins an admission only by a grant, on a lane IN_SERVICE and for its served lift (R92, R99). -/
theorem State.validate_admits (free : (s.lane l).admission = none) : ((s.validate l uid).lane l).admission = none ∨
    ∃ lift slot row, (s.lane l).effective = .inService ∧ (s.lane l).servedLift = some lift ∧ s.decision uid lift = .ok (slot, row)
      ∧ s.validate l uid = s.grantAt l lift slot uid row := by
  have denied (reason : DenyReason) : ((s.denyAt l reason).lane l).admission = none := by simp [State.denyAt, free]
  cases denies : (s.lane l).effective.denial with
  | some reason => exact .inl (State.validate_denied denies ▸ denied reason)
  | none =>
    rcases EffectiveState.denial_eq_none.1 denies with detached | inService
    · left
      simp [State.validate_detached detached, free]
    · cases served : (s.lane l).servedLift with
      | none => exact .inl (State.validate_unserved inService served ▸ denied .noLift)
      | some lift =>
        cases decided : s.decision uid lift with
        | error reason => exact .inl (State.validate_refused inService served decided ▸ denied reason)
        | ok entry => exact .inr ⟨lift, entry.1, entry.2, inService, rfl, decided, State.validate_granted inService served decided⟩

end

/-! ### No other event begins an admission (R105) -/

section
variable {x y z : Lane} {env : LaneEnv} {l : LaneNo}

theorem Lane.takeTap_admission (uid : Uid) : (x.takeTap uid).admission = x.admission := by
  unfold Lane.takeTap
  repeat' split
  all_goals simp

theorem Lane.takeEmptied_admission : x.takeEmptied.admission = x.admission := by
  unfold Lane.takeEmptied
  dsimp only
  repeat' split
  · rfl
  · rfl
  · exact Lane.takeTap_admission (x := { x with emptiedTaps := _ }) _

theorem Lane.rederive_admission_none (free : x.admission = none) : (x.rederive env).admission = none := by
  rw [Lane.rederive_admission, free, ite_self]

theorem Lane.rederiveLift_admission_none (free : x.admission = none) (cause : ServedCause) : (x.rederiveLift env cause).admission = none := by
  unfold Lane.rederiveLift
  split
  · exact free
  · rw [free]
    exact Lane.rederive_admission_none (x := { x with servedLift := x.derivedLift }) free

theorem Lane.rotates_admission_none (free : x.admission = none) : (x.rotates env l).admission = none := by
  simp only [Lane.rotates, free]
  repeat' split
  all_goals simp [free]

/-- No event of a lane but the decision on a tap begins an admission. -/
theorem Lane.Event.admission_none (free : x.admission = none) (h : x.Event env l z) : z.admission = none := by
  cases h with
  | attached p present => exact Lane.rederive_admission_none (x := { x with presence := p }) free
  | detached p absent => exact Lane.rederive_admission_none free
  | latchSense released => exact free
  | driveExpired driven => exact Lane.rederive_admission_none free
  | watchExpired watched => exact Lane.rederive_admission_none free
  | tapped uid =>
    unfold Lane.tapArrives
    split
    · exact free
    · rw [Lane.takeTap_admission, free]
  | emptied => rw [Lane.takeEmptied_admission, free]
  | keyTurned present position =>
    unfold Lane.turnKey
    split
    · exact free
    · exact Lane.rederive_admission_none free
  | modeSet mode =>
    unfold Lane.setMode
    split
    · exact free
    · exact Lane.rederive_admission_none free
  | faultsCleared =>
    unfold Lane.clearFaults
    split
    · exact Lane.rederive_admission_none free
    · exact free
  | remapped primary secondary distinct =>
    exact Lane.rederiveLift_admission_none (x := { x with primaryLift := primary, secondaryLift := secondary }) free _
  | dayOpened => exact Lane.rederive_admission_none free
  | dayClosed => exact Lane.rederive_admission_none free
  | changed i inOperation =>
    unfold Lane.takeChange
    dsimp only
    split
    · exact Lane.rederiveLift_admission_none (x := { x with liftInOperation := x.liftInOperation.set i inOperation }) free _
    · exact free
  | placed i n => simp [Lane.takePlace, free]
  | heldOff i n => simp [Lane.takeHold, free]
  | refused i n => simp [Lane.takeRefusal, free]
  | windowExpired a held => simp [free] at held
  | holdExpired a held => simp [free] at held
  | cancelled uid => simp [Lane.takeCancellation, free]
  | rotated p => exact Lane.rotates_admission_none (x := { x with rotationLine := p }) free

theorem Lane.Moves.admission_none {stamp : Stamp} (free : x.admission = none) (h : Lane.Moves False stamp l x y) : y.admission = none := by
  have stays (h : x.Aside y) : y.admission = none := (congrArg LaneView.admission h.view).trans free
  cases h with
  | aside h ops resets => exact stays h
  | opTaken h ops resets passage => exact stays h
  | resetStarted who h ops resets => exact who.elim
  | event env read h settles => rw [settles, Lane.settle_admission]; exact h.admission_none free
  | decided who env ops h settles => exact who.elim
  | reset who waits settles => exact who.elim

end

/-- A lane without an admission is without one after every command but its own validation (R99, R105). -/
theorem exec_admission_none {c : Instr} {s t : State} {l : LaneNo} (h : exec c s = .next t) (free : (s.lane l).admission = none)
    (other : c ≠ .validation l) : (t.lane l).admission = none := by
  by_cases on : c = .powerOnReset
  · subst on
    rw [execPowerOnReset_lane h]
    rfl
  cases settles : settlesGrants c with
  | false => exact (exec_lanes (pends := False) h on (by simp [settles]) l).admission_none free
  | true =>
    cases c
    case validation k =>
      have apart : mayWriteLane (.validation k) l = false := decide_eq_false fun same => other (same ▸ rfl)
      obtain ⟨u, answer, same⟩ := exec_lane_other (s := s) apart
      cases h.symm.trans answer
      rw [same, free]
    case closingRowOperation k =>
      simp only [exec, execClosingRowOperation] at h
      split at h <;> cases h
      · next taken =>
        obtain ⟨-, -, rfl⟩ := State.takeRowOp_eq_some.1 taken
        rw [State.closeRow_lane, State.dropRowOp, State.setLane_lane]
        split
        · next same => exact same ▸ free
        · exact free
      · exact free
    case stationReset =>
      simp only [exec, execStationReset] at h
      split at h <;> cases h
      · exact free
      · rw [State.startReset_lane]
        exact free
    case laneStationReset k =>
      simp only [exec, execLaneStationReset] at h
      split at h <;> cases h
      · exact free
      · by_cases same : l = k
        · subst same
          rw [State.laneEvent_lane_same]
          rfl
        · rw [State.laneEvent_lane_other _ _ same, free]
    all_goals cases settles

end Sys2Proof.Machine

open Sys2Proof Sys2Proof.Machine

/-- Settles O19: no command but the lane's own validation begins an admission, and that one only by a grant. -/
theorem admissionsBeginAtGrants : Obligations.AdmissionsBeginAtGrants := by
  intro c s t l a h free held
  obtain rfl : c = .validation l := by
    by_contra other
    simp [exec_admission_none h free other] at held
  rcases exec_validation_cases h with rfl | ⟨uid, next, rfl⟩
  · simp [free] at held
  have waits : ((s.rowOpTaken l).lane l).admission = none := by rw [State.rowOpTaken_lane_same, free]
  rcases State.validate_admits (uid := uid) waits with unadmitted | ⟨lift, slot, row, inService, served, granted, outcome⟩
  · simp [unadmitted] at held
  rw [State.rowOpTaken_lane_same] at inService served
  rw [State.rowOpTaken_decision] at granted
  obtain ⟨found, passes⟩ := State.decision_eq_ok.1 granted
  obtain ⟨-, -, idle⟩ := State.decision_ok granted
  rw [outcome, State.grantAt, State.laneEvent_lane_same, Lane.grant_eq] at held
  cases held
  refine ⟨rfl, inService, served, next.1, ⟨row, found, State.active_of_passes passes, idle, ?_, rfl⟩, rfl, rfl⟩
  rw [outcome, State.grantAt, State.laneEvent_table, State.writeRow_slots, slotAt_putSlot, if_pos rfl]

/-- Settles O48: the lane checked again, the checks in their order, and the grant at the row and the lane. -/
theorem validationDecides : Obligations.ValidationDecides := by
  refine ⟨fun s l uid x settled next dropped => ?_, fun s uid lift unknown => State.decision_unknown unknown,
    fun s uid lift slot row p found product => ?_⟩
  · have event := exec_validation settled next
    have lane : (s.rowOpTaken l).lane l = x := dropped ▸ State.rowOpTaken_lane_same
    have state : ((s.rowOpTaken l).lane l).effective = (s.lane l).effective := by rw [lane, dropped]
    have serves : ((s.rowOpTaken l).lane l).servedLift = (s.lane l).servedLift := by rw [lane, dropped]
    refine ⟨fun detached => ?_, fun reason denies => ?_, fun lift reason inService served refused => ?_,
      fun lift slot row inService served granted => ?_⟩
    · rw [event, State.validate_detached (state.trans detached), State.laneEvent, lane]
    · rw [event, State.validate_denied (state ▸ denies), State.denyAt, State.laneEvent, lane]
    · rw [event, State.validate_refused (state.trans inService) (serves.trans served) (State.rowOpTaken_decision.trans refused), State.denyAt,
        State.laneEvent, lane]
    · rw [event, State.validate_granted (state.trans inService) (serves.trans served) (State.rowOpTaken_decision.trans granted),
        State.grantAt_eq, lane, State.rowOpTaken_laneEnv, Lane.grant_eq, State.messagesWith_eq, dropped]
  · have denied {reason : DenyReason} (h : s.denialOf row lift = some reason) : s.decision uid lift = .error reason :=
      State.decision_denied found h
    refine ⟨fun blocked => denied (State.denialOf_blocked blocked), fun retired => denied (State.denialOf_retired retired),
      fun active undefined => denied (State.denialOf_undefined active (product ▸ undefined)), fun active defined =>
        ⟨fun before => denied (State.denialOf_no_day active (product ▸ defined) before), fun d today => ?_⟩⟩
    have checks := State.denialOf_on_day (lift := lift) active product defined today
    refine ⟨fun out => denied (checks.trans (if_pos (validOn_eq_false out))), fun opened unclosed unexpired => ?_⟩
    rw [if_neg (by simp [validOn_iff.2 ⟨opened, unclosed, unexpired⟩])] at checks
    refine ⟨fun barred => denied (checks.trans (if_pos barred)), fun admitted => ?_⟩
    rw [if_neg (Bool.not_eq_false _ ▸ admitted)] at checks
    refine ⟨fun pending => denied (checks.trans (if_pos pending)), fun idle => ?_⟩
    rw [if_neg (not_not.2 idle)] at checks
    refine ⟨fun q last day same soon runs => denied (checks.trans (if_pos (tooSoon_iff.2 ⟨q, last, day, same, runs, soon⟩))),
      fun rested => ?_⟩
    rw [if_neg (by simp [tooSoon_eq_false rested])] at checks
    refine ⟨fun multiDay fresh used => denied (checks.trans (if_pos ?_)), fun left => State.decision_granted found (checks.trans (if_neg ?_))⟩
    · rw [← Bool.not_eq_true, dayLeft_iff]
      simp [multiDay, fresh, used]
    · simpa using dayLeft_iff.2 left
end

section
set_option Elab.async false
/-! What the row operations of a passage and the closing row operation make of the row and hand to the journal (R112, R113, R115), and the millisecond that a
step on an empty queue is (log entry 2). -/
namespace Sys2Proof.Machine

/-! ### The day that a passage consumes (R112) -/

section
variable {p : Product} {row : PassRow} {d : Nat}

/-- A day already in the list, or for which the list has no room, is not consumed. -/
theorem commitDay_multiDay_kept (multiDay : p.kind = .multiDay) (kept : d ∈ row.consumed ∨ p.dayCount ≤ row.consumed.length) :
    commitDay p row d = (row, false) := by
  simp only [commitDay, multiDay, List.contains_iff_mem]
  rcases kept with listed | full
  · rw [if_pos listed]
  · rw [if_neg (Nat.not_lt.2 full), ite_self]

theorem commitDay_multiDay_new (multiDay : p.kind = .multiDay) (new : d ∉ row.consumed) (room : row.consumed.length < p.dayCount) :
    commitDay p row d = ({ row with consumed := insertDay d row.consumed }, true) := by
  simp only [commitDay, multiDay, List.contains_iff_mem]
  rw [if_neg new, if_pos room]

/-- A day no later than the last one counted is not counted again. -/
theorem commitDay_season_kept (season : p.kind = .season) (counted : ∃ c, row.lastCountedDay = some c ∧ d ≤ c) :
    commitDay p row d = (row, false) := by
  obtain ⟨c, last, notLater⟩ := counted
  simp [commitDay, season, last, notLater]

theorem commitDay_season_new (season : p.kind = .season) (later : ∀ c, row.lastCountedDay = some c → c < d) :
    commitDay p row d = ({ row with seasonDays := min 240 (row.seasonDays + 1), lastCountedDay := some d }, true) := by
  simp only [commitDay, season]
  rw [if_pos (by simpa [Option.all_eq_true] using later)]

end

section
variable {p : Product} {row : PassRow} {lift : LiftNo} {stamp : Stamp}

/-- A stamp without a day leaves the row and consumes no day (log entry 50). -/
theorem commitRow_without_day (undated : stamp.day = none) : commitRow p row lift stamp = (row, false) := by
  rw [commitRow, undated]

/-- A commit that consumes its day or not writes the last passage over what the day makes of the row. -/
theorem commitRow_of_commitDay {d : Nat} {counted : PassRow} {newDay : Bool} (dated : stamp.day = some d)
    (day : commitDay p row d = (counted, newDay)) :
    commitRow p row lift stamp = ({ counted with lastPassage := some { lift := lift, day := d, second := stamp.second } }, newDay) := by
  rw [commitRow, dated]
  simp only [day]

end

/-! ### The row operations of an admission (R112, R113, R115) -/

section
variable {s : State} {l : LaneNo} {slot head : Nat} {uid : Uid} {lift : LiftNo} {stamp : Stamp} {row : PassRow}

theorem State.takeRowOp_next {op : RowOp} (next : s.RowOpNext l op) : s.takeRowOp l = some (op, s.rowOpTaken l) :=
  State.takeRowOp_of next.1 next.2

/-- Taking a row operation leaves the rows and the product records. -/
theorem State.rowOpTaken_rowOf : (s.rowOpTaken l).rowOf slot uid = s.rowOf slot uid := rfl

theorem State.rowOpTaken_product (code : ProductCode) : (s.rowOpTaken l).product code = s.product code := rfl

/-- The passage commit finds the row that it names. -/
theorem exec_passageCommit (next : s.RowOpNext l (.passage slot uid 1 lift stamp)) (found : s.rowOf slot uid = some row) :
    exec (.passageCommit l) s = .next
      (((s.rowOpTaken l).writeRow slot (commitRow (s.product row.product) row lift stamp).1).handPassage
        (passageRecord l lift uid 1 stamp (commitRow (s.product row.product) row lift stamp).2)) := by
  simp only [exec, execPassageCommit, State.takeRowOp_next next, if_true, State.commit, State.rowOpTaken_rowOf, found, State.rowOpTaken_product]

/-- The row operation of a later head confirms the row that it names, and hands a record that consumes no day. -/
theorem exec_headRecord (later : head ≠ 1) (next : s.RowOpNext l (.passage slot uid head lift stamp)) (found : s.rowOf slot uid = some row) :
    exec (.headRecord l) s = .next ((s.rowOpTaken l).handPassage (passageRecord l lift uid head stamp false)) := by
  simp only [exec, execHeadRecord, State.takeRowOp_next next, if_neg later, State.recordHead, State.rowOpTaken_rowOf, found]

theorem exec_closingRowOperation (next : s.RowOpNext l (.closing slot uid)) :
    exec (.closingRowOperation l) s = .next ((s.rowOpTaken l).closeRow l slot uid) := by
  simp only [exec, execClosingRowOperation, State.takeRowOp_next next]

theorem State.closeRow_pending_here (found : s.rowOf slot uid = some row) (pending : row.pendingLane = some l) :
    s.closeRow l slot uid = s.writeRow slot { row with pendingLane := none } := by
  rw [State.closeRow, found]
  exact if_pos pending

/-- A row that does not name this lane stays, and so does the table where the row is no longer there (log entry 26). -/
theorem State.closeRow_not_pending_here (elsewhere : ∀ row, s.rowOf slot uid = some row → row.pendingLane ≠ some l) :
    s.closeRow l slot uid = s := by
  rw [State.closeRow]
  cases found : s.rowOf slot uid with
  | none => rfl
  | some row => exact if_neg (elsewhere row found)

end

/-! ### A millisecond (log entries 2 and 4) -/

theorem step_of_empty_queue {s : State} (empty : s.pending = []) : step s = .next s.tick := by
  rw [step, empty]

/-- The timebase and the parts that measure time on it run on, and no other part changes. -/
theorem State.tick_keeps (s : State) : Keeps [.timebase, .lanes, .lifts, .serviceKey, .resetLine, .calendar] s s.tick := by
  rw [keeps_iff]
  simp

end Sys2Proof.Machine

open Sys2Proof Sys2Proof.Machine

/-- Settles O50: each row operation on the row that it names, and the commit by what its stamp day makes of that row. -/
theorem passageRowsWritten : Obligations.PassageRowsWritten := by
  refine ⟨fun s l slot uid lift stamp row p next held carries product => ?_,
    fun s l slot uid head lift stamp row later next held carries => exec_headRecord later next (State.rowOf_eq_some.2 ⟨held, carries⟩),
    fun s l slot uid next => ⟨fun row held carries pending => ?_, fun elsewhere => ?_⟩⟩
  · subst product
    refine ⟨_, _, exec_passageCommit next (State.rowOf_eq_some.2 ⟨held, carries⟩), fun undated => ?_, fun d dated => ⟨_, rfl, ?_⟩⟩
    · exact Prod.mk.inj (commitRow_without_day undated)
    have writes {counted : PassRow} {newDay : Bool} (day : commitDay (s.product row.product) row d = (counted, newDay)) :=
      Prod.mk.inj (commitRow_of_commitDay (lift := lift) dated day)
    exact ⟨fun multiDay kept => writes (commitDay_multiDay_kept multiDay kept),
      fun multiDay new room => writes (commitDay_multiDay_new multiDay new room),
      fun season counted => writes (commitDay_season_kept season counted),
      fun season later => writes (commitDay_season_new season later)⟩
  · have found := (State.rowOpTaken_rowOf (l := l)).trans (State.rowOf_eq_some.2 ⟨held, carries⟩)
    rw [exec_closingRowOperation next, State.closeRow_pending_here found pending]
  · rw [exec_closingRowOperation next, State.closeRow_not_pending_here fun row found => ?_]
    obtain ⟨held, carries⟩ := State.rowOf_eq_some.1 (State.rowOpTaken_rowOf.symm.trans found)
    exact elsewhere row held carries

/-- Settles O2: the step is the tick, which runs each measure of time on by itself. -/
theorem idleStepIsOneMillisecond : Obligations.IdleStepIsOneMillisecond := fun s empty =>
  ⟨s.tick, step_of_empty_queue empty, rfl, s.tick_lane, s.tick_lift, rfl, rfl, ⟨_, rfl⟩, s.tick_keeps⟩
end

section
set_option Elab.async false
/-! What the ride journal's own operations make of its records, its positions and its marks, and its law kept by each of them (R128 to R131, R134 to R139). -/
namespace Sys2Proof.Machine

/-! ### Sequences that follow one another (R129) -/

section
variable {q next : Nat} {r n : JournalRecord} {before after ring : List JournalRecord}

theorem stepForward_legal (legal : 1 ≤ q ∧ q ≤ sequenceCount) : 1 ≤ stepForward q ∧ stepForward q ≤ sequenceCount := by
  unfold stepForward sequenceCount at *
  split <;> omega

theorem consecutive_tail (h : consecutive (r :: after) next) : consecutive after next := by
  cases after with
  | nil => trivial
  | cons n rest =>
    obtain ⟨-, -, -, rest⟩ := h
    exact rest

theorem consecutive_of_append (h : consecutive (before ++ after) next) : consecutive after next := by
  induction before with
  | nil => exact h
  | cons r before ih => exact ih (consecutive_tail h)

theorem stepForward_of_consecutive (h : consecutive (before ++ r :: n :: after) next) : stepForward r.sequence = n.sequence := by
  obtain ⟨-, -, steps, -⟩ := consecutive_of_append h
  exact steps

/-- The record of the next sequence joins at the newest end. -/
theorem consecutive_joined (h : consecutive ring r.sequence) (legal : 1 ≤ r.sequence ∧ r.sequence ≤ sequenceCount) :
    consecutive (ring ++ [r]) (stepForward r.sequence) := by
  induction ring with
  | nil => exact ⟨legal.1, legal.2, rfl⟩
  | cons x rest ih =>
    cases rest with
    | nil =>
      obtain ⟨low, high, steps⟩ := h
      exact ⟨low, high, steps, legal.1, legal.2, rfl⟩
    | cons y rest =>
      obtain ⟨low, high, steps, rest⟩ := h
      exact ⟨low, high, steps, ih rest⟩

end

/-! ### The records held, and those freed (R128, R135, R137) -/

section
variable {j : Journal} {q p : Nat} {x : JournalRecord} {before after ring : List JournalRecord}

theorem Journal.recordAt_isSome : (j.recordAt q).isSome = true ↔ ∃ y ∈ j.ring, y.sequence = q := by
  simp [Journal.recordAt]

theorem ringAfter_suffix (ring : List JournalRecord) (q : Nat) : ringAfter ring q <:+ ring := by
  induction ring with
  | nil => exact List.suffix_rfl
  | cons r rest ih =>
    unfold ringAfter
    split
    · exact List.suffix_cons r rest
    · exact ih.trans (List.suffix_cons r rest)

theorem ringAfter_first (here : x.sequence = q) (first : ∀ y ∈ before, y.sequence ≠ q) : ringAfter (before ++ x :: after) q = after := by
  induction before with
  | nil => exact if_pos here
  | cons r before ih =>
    obtain ⟨other, first⟩ := List.forall_mem_cons.1 first
    exact (if_neg other).trans (ih first)

theorem movedTo_held (held : ∃ y ∈ ring, y.sequence = q) : movedTo ring (some q) = some q := if_pos (by simpa using held)

theorem movedTo_freed (freed : ∀ y ∈ ring, y.sequence ≠ q) : movedTo ring (some q) = ring.head?.map (·.sequence) :=
  if_neg (by simpa using freed)

/-- Wherever a position moves, it names a record still held. -/
theorem held_of_movedTo {position : Option Nat} (moved : movedTo ring position = some p) : ∃ y ∈ ring, y.sequence = p := by
  cases position with
  | none => cases moved
  | some q =>
    by_cases held : ∃ y ∈ ring, y.sequence = q
    · rw [movedTo_held held] at moved
      cases moved
      exact held
    · rw [movedTo_freed (by simpa using held)] at moved
      obtain ⟨y, oldest, rfl⟩ := Option.map_eq_some_iff.1 moved
      exact ⟨y, List.mem_of_head? oldest, rfl⟩

/-- The journal once the record of sequence `q` and every older one are freed, the high state still to be considered (R135, R137). -/
def Journal.freed (j : Journal) (q : Nat) : Journal :=
  { j with ring := ringAfter j.ring q, sendPosition := movedTo (ringAfter j.ring q) j.sendPosition,
           replayCursor := movedTo (ringAfter j.ring q) j.replayCursor }

theorem Journal.free_eq (j : Journal) (q : Nat) : j.free q = (j.freed q).considerHigh := rfl

end

/-! ### The high state (R139) -/

section
variable {j : Journal}

theorem Journal.considerHigh_rises (below : j.above = false) (reached : j.highMark ≤ j.held) : j.considerHigh =
    { j with above := true, raises := j.raises ++ [{ condition := .journalHigh, detail := .heldCount j.held }] } := by
  simp [Journal.considerHigh, below, reached]

theorem Journal.considerHigh_below (below : j.above = false) (short : j.held < j.highMark) : j.considerHigh = j := by
  simp [Journal.considerHigh, below, Nat.not_le.2 short]

theorem Journal.considerHigh_falls (above : j.above = true) (reached : j.held ≤ j.lowMark) : j.considerHigh = { j with above := false } := by
  simp [Journal.considerHigh, above, reached]

theorem Journal.considerHigh_above (above : j.above = true) (more : j.lowMark < j.held) : j.considerHigh = j := by
  simp [Journal.considerHigh, above, Nat.not_le.2 more]

end

/-! ### What is no part of the law: the counts, the high state and the raises -/

/-- The two journals hold the same records, with the same next sequence, positions and marks. -/
structure Journal.Agrees (x j : Journal) : Prop where
  ring : x.ring = j.ring
  next : x.nextSequence = j.nextSequence
  send : x.sendPosition = j.sendPosition
  replay : x.replayCursor = j.replayCursor
  low : x.lowMark = j.lowMark
  high : x.highMark = j.highMark

section
variable {x j : Journal}

theorem Journal.Agrees.refl (j : Journal) : j.Agrees j := ⟨rfl, rfl, rfl, rfl, rfl, rfl⟩

theorem Journal.Agrees.trans {y : Journal} (h : x.Agrees j) (k : j.Agrees y) : x.Agrees y :=
  ⟨h.ring.trans k.ring, h.next.trans k.next, h.send.trans k.send, h.replay.trans k.replay, h.low.trans k.low, h.high.trans k.high⟩

theorem Journal.considerHigh_agrees (j : Journal) : j.considerHigh.Agrees j := by
  unfold Journal.considerHigh
  repeat' split
  all_goals exact ⟨rfl, rfl, rfl, rfl, rfl, rfl⟩

theorem Journal.raiseBin_agrees (j : Journal) (b : RecordBody) : (j.raiseBin b).Agrees j := by
  unfold Journal.raiseBin
  repeat' split
  all_goals exact ⟨rfl, rfl, rfl, rfl, rfl, rfl⟩

theorem Journal.overflow_agrees (j : Journal) (lift : Option LiftNo) : (j.overflow lift).Agrees j := by
  cases lift <;> exact ⟨rfl, rfl, rfl, rfl, rfl, rfl⟩

theorem Journal.Agrees.held (h : x.Agrees j) : x.held = j.held := congrArg List.length h.ring

theorem Journal.Agrees.recordAt (h : x.Agrees j) (q : Nat) : x.recordAt q = j.recordAt q := by
  rw [Journal.recordAt, h.ring, Journal.recordAt]

theorem Journal.Law.agrees (law : j.Law) (h : x.Agrees j) : x.Law where
  held := h.held ▸ law.held
  next := h.next ▸ law.next
  sequences := by rw [h.ring, h.next]; exact law.sequences
  send q held := by rw [h.recordAt]; exact law.send q (h.send ▸ held)
  replay q held := by rw [h.recordAt]; exact law.replay q (h.replay ▸ held)
  marks := by rw [h.low, h.high]; exact law.marks

end

/-! ### The law kept by each operation (R128, R129, R134, R136, R138) -/

section
variable {x j : Journal}

/-- The positions may stand at any records held. -/
theorem Journal.Law.positions {send replay : Option Nat} (law : j.Law) (sends : ∀ q, send = some q → (j.recordAt q).isSome = true)
    (replays : ∀ q, replay = some q → (j.recordAt q).isSome = true) :
    Journal.Law { j with sendPosition := send, replayCursor := replay } where
  held := law.held
  next := law.next
  sequences := law.sequences
  send := sends
  replay := replays
  marks := law.marks

theorem Journal.Law.append (law : j.Law) (room : j.held < 4096) (resortLift : Option Nat) (b : RecordBody) : (j.append resortLift b).Law := by
  have kept {q : Nat} (held : (j.recordAt q).isSome = true) : ((j.append resortLift b).recordAt q).isSome = true := by
    obtain ⟨y, held, carries⟩ := Journal.recordAt_isSome.1 held
    exact Journal.recordAt_isSome.2 ⟨y, List.mem_append_left _ held, carries⟩
  exact
    { held := by simpa [Journal.held, Journal.append] using room
      next := stepForward_legal law.next
      sequences := consecutive_joined law.sequences law.next
      send := fun q stands => by
        cases position : j.sendPosition with
        | none =>
          have joined : j.nextSequence = q := by simpa [Journal.append, position] using stands
          exact Journal.recordAt_isSome.2 ⟨_, List.mem_append_right _ (List.mem_singleton.2 rfl), joined⟩
        | some p =>
          obtain rfl : p = q := by simpa [Journal.append, position] using stands
          exact kept (law.send p position)
      replay := fun q stands => kept (law.replay q stands)
      marks := law.marks }

theorem Journal.Law.takeRide (law : j.Law) (resortLift : Option Nat) (b : RecordBody) : (j.takeRide resortLift b).Law := by
  unfold Journal.takeRide
  split
  · next room =>
    exact (law.append (by omega) resortLift b).agrees ((Journal.considerHigh_agrees _).trans (Journal.raiseBin_agrees _ b))
  · exact law.agrees ((Journal.raiseBin_agrees _ b).trans (Journal.overflow_agrees j b.lift))

theorem Journal.Law.offerMoney {b : RecordBody} {sequence : Nat} (law : j.Law) (taken : j.offerMoney b = some (sequence, x)) : x.Law := by
  unfold Journal.offerMoney at taken
  split at taken
  · next room =>
    cases taken
    exact (law.append room none b).agrees (Journal.considerHigh_agrees _)
  · cases taken

/-- A position that leaves a held record which is not the newest comes to the next one (R129, R134, R136). -/
theorem Journal.Law.stepFrom {q p : Nat} (law : j.Law) (held : (j.recordAt q).isSome = true) (steps : j.stepFrom q = some p) :
    (j.recordAt p).isSome = true := by
  obtain ⟨y, stands, rfl⟩ := Journal.recordAt_isSome.1 held
  obtain ⟨before, after, ring⟩ := List.append_of_mem stands
  cases after with
  | nil => simp [Journal.stepFrom, Journal.newest, ring] at steps
  | cons n after =>
    have next : stepForward y.sequence = n.sequence := stepForward_of_consecutive (ring ▸ law.sequences)
    have stepped : stepForward y.sequence = p := by
      unfold Journal.stepFrom at steps
      split at steps
      · cases steps
      · exact Option.some.inj steps
    exact Journal.recordAt_isSome.2 ⟨n, by simp [ring], next.symm.trans stepped⟩

theorem Journal.Law.offer {r : JournalRecord} {replayed : Bool} (law : j.Law) (offered : j.offer = some (r, replayed, x)) : x.Law := by
  unfold Journal.offer at offered
  split at offered
  · next q position =>
    obtain ⟨_, _, taken⟩ := Option.map_eq_some_iff.1 offered
    cases taken
    exact law.positions (fun _ => law.stepFrom (law.send q position)) law.replay
  · split at offered
    · next q cursor =>
      obtain ⟨_, _, taken⟩ := Option.map_eq_some_iff.1 offered
      cases taken
      exact law.positions law.send fun _ => law.stepFrom (law.replay q cursor)
    · cases offered

theorem Journal.Law.freed (law : j.Law) (q : Nat) : (j.freed q).Law := by
  obtain ⟨before, ring⟩ := ringAfter_suffix j.ring q
  exact
    { held := (ringAfter_suffix j.ring q).length_le.trans law.held
      next := law.next
      sequences := consecutive_of_append (ring.symm ▸ law.sequences)
      send := fun _ moved => Journal.recordAt_isSome.2 (held_of_movedTo moved)
      replay := fun _ moved => Journal.recordAt_isSome.2 (held_of_movedTo moved)
      marks := law.marks }

theorem Journal.Law.free (law : j.Law) (q : Nat) : (j.free q).Law := (law.freed q).agrees (Journal.considerHigh_agrees _)

/-- Clamped one below the other, the marks stand in order (R138). -/
theorem clamped_marks (low high : Nat) : 1 ≤ clamp 1 (clamp 2 4080 high - 1) low
    ∧ clamp 1 (clamp 2 4080 high - 1) low < clamp 2 4080 high ∧ clamp 2 4080 high ≤ 4080 := by
  obtain ⟨highLow, highHigh⟩ := clamp_bounds high (show 2 ≤ 4080 by decide)
  obtain ⟨lowLow, lowHigh⟩ := clamp_bounds low (show 1 ≤ clamp 2 4080 high - 1 by omega)
  exact ⟨lowLow, by omega, highHigh⟩

theorem Journal.Law.setMarks (law : j.Law) (low high : Nat) : (j.setMarks low high).Law := by
  have written : Journal.Law { j with highMark := clamp 2 4080 high, lowMark := clamp 1 (clamp 2 4080 high - 1) low } :=
    { held := law.held
      next := law.next
      sequences := law.sequences
      send := law.send
      replay := law.replay
      marks := clamped_marks low high }
  exact written.agrees (Journal.considerHigh_agrees _)

end
end Sys2Proof.Machine
end

section
set_option Elab.async false
/-! What a command can do to the ride journal: said once, and its law derived from it (R128, R129, R134, R136, R138, R141). -/
namespace Sys2Proof.Machine

/-- The changes of the journal: raises and counters set aside, a ride record taken or a money record appended, a record offered, an acknowledgement,
a replay, the marks written, and the positions made absent by a station reset. -/
inductive Journal.Change (j : Journal) : Journal → Prop
  | aside {x : Journal} (same : x.Agrees j) : Change j x
  | ride (resortLift : Option Nat) (b : RecordBody) : Change j (j.takeRide resortLift b)
  | money {b : RecordBody} {sequence : Nat} {x : Journal} (taken : j.offerMoney b = some (sequence, x)) : Change j x
  | offers {r : JournalRecord} {replayed : Bool} {x : Journal} (offered : j.offer = some (r, replayed, x)) : Change j x
  | acknowledged (q : Nat) : Change j (j.free q)
  | replays {q : Nat} (held : (j.recordAt q).isSome = true) : Change j { j with replayCursor := some q }
  | marks (low high : Nat) : Change j (j.setMarks low high)
  | reset : Change j { j with sendPosition := none, replayCursor := none }

theorem Journal.Change.of_eq {j x : Journal} (same : x = j) : j.Change x := by
  subst same
  exact .aside (.refl x)

theorem Journal.Law.change {j x : Journal} (law : j.Law) (h : j.Change x) : x.Law := by
  cases h with
  | aside same => exact law.agrees same
  | ride resortLift b => exact law.takeRide resortLift b
  | money taken => exact law.offerMoney taken
  | offers offered => exact law.offer offered
  | acknowledged q => exact law.free q
  | @replays q held => exact law.positions law.send fun p stands => Option.some.inj stands ▸ held
  | marks low high => exact law.setMarks low high
  | reset => exact law.positions (fun _ absent => nomatch absent) fun _ absent => nomatch absent

/-! ### Each command at the journal -/

section
variable {s t : State} {r : Routed}

theorem exec_passageRecordTake {owner : RecordOwner} {b : RecordBody} {rest : List RecordBody} (handed : s.recordsOf owner = b :: rest) :
    exec (.passageRecordTake owner) s
      = .next { s.setRecords owner rest with journal := s.journal.takeRide (s.resortLiftOf b) b } := by
  simp only [exec, execPassageRecordTake, handed]

theorem exec_journalAck_held (routes : s.Routes .journal .journalAck r) (held : (s.journal.recordAt (field r.body 0 4)).isSome = true) :
    exec .journalAck s = .next ({ s.dropNextFor .journal with journal := s.journal.free (field r.body 0 4) }.answer r.place .ok
      (be (s.journal.free (field r.body 0 4)).held 2)) := by
  simp [exec, execJournalAck, routes.take, held]

theorem exec_journalAck_other (routes : s.Routes .journal .journalAck r) (other : (s.journal.recordAt (field r.body 0 4)).isSome = false) :
    exec .journalAck s = .next ((s.dropNextFor .journal).answer r.place (s.journal.ackCode (field r.body 0 4)) []) := by
  simp [exec, execJournalAck, routes.take, other]

theorem exec_journalReplay_held (routes : s.Routes .journal .journalReplay r)
    (held : field r.body 0 4 ≠ 0 ∧ (s.journal.recordAt (field r.body 0 4)).isSome = true) : exec .journalReplay s =
      .next ({ s.dropNextFor .journal with journal := { s.journal with replayCursor := some (field r.body 0 4) } }.answer r.place .ok []) := by
  simp only [exec, execJournalReplay, routes.take]
  exact if_pos held

theorem exec_journalReplay_refused (routes : s.Routes .journal .journalReplay r)
    (other : ¬ (field r.body 0 4 ≠ 0 ∧ (s.journal.recordAt (field r.body 0 4)).isSome = true)) :
    exec .journalReplay s = .next ((s.dropNextFor .journal).answer r.place .badSequence []) := by
  simp only [exec, execJournalReplay, routes.take]
  exact if_neg other

/-! ### The money records (R131) -/

theorem State.applyRetire_change (s : State) (uid : Uid) : s.journal.Change (s.applyRetire uid).2.2.journal := by
  simp only [State.applyRetire]
  repeat' split
  · exact .of_eq rfl
  · exact .of_eq rfl
  · simp only [State.retire]
    split
    · exact .of_eq rfl
    · next taken => exact .money taken

theorem State.adjust_change {row : PassRow} {d : Nat} {a : Adjusted} {x : Journal} (adjusted : s.adjust row d = .adjusted a x) :
    s.journal.Change x := by
  simp only [State.adjust, State.lowerBalance] at adjusted
  repeat' split at adjusted
  all_goals cases adjusted
  next taken => exact .money taken

theorem State.mergeInsert_change (s : State) (slot d : Nat) (row : PassRow) : s.journal.Change (s.mergeInsert slot row d).state.journal := by
  simp only [State.mergeInsert]
  split
  · exact .of_eq rfl
  · next adjusted => exact State.adjust_change adjusted
  · exact .of_eq rfl

theorem State.merge_change (s : State) (uid : Uid) (d : Nat) : s.journal.Change (s.merge uid d).state.journal := by
  simp only [State.merge]
  repeat' split
  · exact .of_eq rfl
  · exact .of_eq rfl
  · exact .of_eq rfl
  · exact .of_eq rfl
  · exact .of_eq (by simp)
  · simp only [State.mergeMultiDay]
    repeat' split
    · exact .of_eq rfl
    · exact .of_eq rfl
    · exact State.mergeInsert_change ..

theorem exec_usageMerge_change (h : exec .usageMerge s = .next t) : s.journal.Change t.journal := by
  simp only [exec, execUsageMerge] at h
  split at h
  · cases h; exact .of_eq rfl
  · next r _ taken =>
    obtain ⟨-, -, -, rfl⟩ := State.takePortRequest_eq_some.1 taken
    cases h
    rw [State.answer_journal]
    exact State.merge_change (s.served r) ..

theorem exec_refundRetire_change (h : exec .refundRetire s = .next t) : s.journal.Change t.journal := by
  simp only [exec, execRefundRetire] at h
  split at h
  · next bad =>
    obtain ⟨-, -, -, rfl⟩ := State.takeBadRefund_eq_some.1 bad
    split at h <;> cases h
    · exact .of_eq (by simp)
    · exact .of_eq rfl
  · split at h
    · cases h; exact .of_eq rfl
    · next r _ taken =>
      obtain ⟨-, -, -, rfl⟩ := State.takePortRequest_eq_some.1 taken
      split at h <;> cases h
      · rw [State.answer_journal]
        exact State.applyRetire_change (s.served r) _
      · exact .of_eq rfl

/-! ### Every command -/

/-- The transmitter takes a record from the journal, or leaves the journal as it stands (R133, R134, R136). -/
theorem State.transmitNext_change (s : State) : s.journal.Change s.transmitNext.journal := by
  simp only [State.transmitNext]
  repeat' split
  · exact .of_eq rfl
  · exact .of_eq rfl
  · exact .of_eq rfl
  · next offered => exact .offers offered

/-- Each command but power-on reset makes one of the changes. -/
theorem exec_journal {c : Instr} (h : exec c s = .next t) (on : c ≠ .powerOnReset) : s.journal.Change t.journal := by
  by_cases still : Part.journal ∉ Part.writtenBy c
  · exact .of_eq (exec_frame h .journal still)
  by_cases stands : s.stands c
  swap
  · rw [exec_of_not_stands stands] at h
    cases h
    exact .of_eq rfl
  cases c
  case powerOnReset => exact absurd rfl on
  case stationReset =>
    simp only [exec, execStationReset] at h
    split at h <;> cases h
    · exact .of_eq rfl
    · exact .reset
  case transmitFrame =>
    cases h
    exact State.transmitNext_change { s with trunk := s.trunk.sent }
  case usageMerge => exact exec_usageMerge_change h
  case refundRetire => exact exec_refundRetire_change h
  case journalDayOpen =>
    simp only [exec, execJournalDayOpen] at h
    split at h <;> cases h <;> exact .aside ⟨rfl, rfl, rfl, rfl, rfl, rfl⟩
  case passageRecordTake owner =>
    obtain ⟨b, rest, handed⟩ := List.exists_cons_of_ne_nil stands
    rw [exec_passageRecordTake handed] at h
    cases h
    exact .ride ..
  case journalAck =>
    obtain ⟨r, routes⟩ := stands
    cases held : (s.journal.recordAt (field r.body 0 4)).isSome with
    | true =>
      rw [exec_journalAck_held routes held] at h
      cases h
      rw [State.answer_journal]
      exact .acknowledged _
    | false =>
      rw [exec_journalAck_other routes held] at h
      cases h
      exact .of_eq (by simp)
  case journalReplay =>
    obtain ⟨r, routes⟩ := stands
    by_cases held : field r.body 0 4 ≠ 0 ∧ (s.journal.recordAt (field r.body 0 4)).isSome = true
    · rw [exec_journalReplay_held routes held] at h
      cases h
      rw [State.answer_journal]
      exact .replays held.2
    · rw [exec_journalReplay_refused routes held] at h
      cases h
      exact .of_eq (by simp)
  case config owner =>
    cases owner
    case journal =>
      obtain ⟨r, routes⟩ := stands
      simp only [exec, execConfig, routes.take] at h
      cases h
      simp only [State.markSettings, State.jointAnswer_journal]
      exact .marks ..
    all_goals exact absurd (by simp [Part.writtenBy]) still
  case noticeRaise source =>
    cases source
    case journal =>
      obtain ⟨r, rest, handed⟩ := List.exists_cons_of_ne_nil stands
      simp only [exec, execNoticeRaise, handed] at h
      cases h
      exact .aside ⟨rfl, rfl, rfl, rfl, rfl, rfl⟩
    all_goals exact absurd (by simp [Part.writtenBy]) still
  all_goals exact absurd (by simp [Part.writtenBy]) still

theorem step_journalLaw (law : s.journal.Law) (h : step s = .next t) : t.journal.Law := by
  rcases step_cases h with rfl | ⟨c, rest, h⟩
  · exact law.change (.of_eq s.tick_journal)
  by_cases on : c = .powerOnReset
  · subst on
    cases h
    exact Journal.powerOn_law
  · exact Journal.Law.change (j := s.journal) law (exec_journal (s := { s with pending := rest }) h on)

end
end Sys2Proof.Machine

open Sys2Proof Sys2Proof.Machine

/-- Settles O16: every command makes one of the changes of the journal, and each keeps its law. -/
theorem journalLawKept : Obligations.JournalLawKept := fun _ _ => step_journalLaw
end

section
set_option Elab.async false
/-! What the ride journal makes of a passage-kind record, of an acknowledgement and of a replay (R129, R130, R132, R134 to R137, R139). -/
namespace Sys2Proof.Machine

/-! ### The owners of records (R126) -/

section
variable {s : State} {owner other : RecordOwner} {rest : List RecordBody}

@[simp] theorem State.recordsOf_setRecords_same : (s.setRecords owner rest).recordsOf owner = rest := by
  cases owner with
  | passTable => rfl
  | lane l => simp [State.setRecords, State.recordsOf]

theorem State.recordsOf_setRecords_other (differs : other ≠ owner) : (s.setRecords owner rest).recordsOf other = s.recordsOf other := by
  cases owner with
  | passTable =>
    cases other with
    | passTable => exact absurd rfl differs
    | lane m => rfl
  | lane l =>
    cases other with
    | passTable => rfl
    | lane m => exact congrArg Lane.records (State.setLane_lane_other s _ fun same => differs (same ▸ rfl))

theorem State.recordsOf_withJournal (s : State) (owner : RecordOwner) (j : Journal) :
    State.recordsOf { s with journal := j } owner = s.recordsOf owner := by
  cases owner <;> rfl

end

/-! ### A passage-kind record (R130, R132) -/

section
variable {j : Journal} {b : RecordBody}

/-- The record's own bin goes up by one, for the hour of a day's second; no other does. -/
theorem Journal.raiseBin_bins (j : Journal) (b : RecordBody) (i : LiftNo) (hour : Fin 24) : (j.raiseBin b).bins[i][hour] =
    if b.lift = some i ∧ b.second / 3600 = hour.val then (j.bins[i][hour] + 1) % 4294967296 else j.bins[i][hour] := by
  cases lift : b.lift with
  | none => simp [Journal.raiseBin, lift]
  | some k =>
    by_cases inDay : b.second / 3600 < 24
    · simp only [Journal.raiseBin, lift, inDay, dif_pos, Option.some.injEq, Fin.getElem_fin, Vector.getElem_set, ← Fin.ext_iff]
      by_cases here : k = i
      · subst here
        simp only [if_true, true_and, Vector.getElem_set]
        split
        · next same => simp only [same, turnOver]
        · rfl
      · simp only [here, if_false, false_and]
    · have beyond : b.second / 3600 ≠ hour.val := by omega
      simp [Journal.raiseBin, lift, inDay, beyond]

theorem Journal.raiseBin_eq (j : Journal) (b : RecordBody) : j.raiseBin b = { j with bins := (j.raiseBin b).bins } := by
  unfold Journal.raiseBin
  repeat' split
  all_goals rfl

/-- The journal once it has appended the record or counted its overflow, and raised its bin, the high state still to be considered (R130, R132). -/
def Journal.rideTaken (j : Journal) (resortLift : Option Nat) (b : RecordBody) : Journal :=
  (if j.held < 4080 then j.append resortLift b else j.overflow b.lift).raiseBin b

theorem Journal.rideTaken_room (room : j.held < 4080) (resortLift : Option Nat) :
    j.rideTaken resortLift b = (j.append resortLift b).raiseBin b := by
  rw [Journal.rideTaken, if_pos room]

theorem Journal.rideTaken_full (full : 4080 ≤ j.held) (resortLift : Option Nat) :
    j.rideTaken resortLift b = (j.overflow b.lift).raiseBin b := by
  rw [Journal.rideTaken, if_neg (Nat.not_lt.2 full)]

theorem Journal.takeRide_room (room : j.held < 4080) (resortLift : Option Nat) :
    j.takeRide resortLift b = (j.rideTaken resortLift b).considerHigh := by
  rw [Journal.takeRide, if_pos room, Journal.rideTaken_room room]

theorem Journal.takeRide_full (full : 4080 ≤ j.held) (resortLift : Option Nat) : j.takeRide resortLift b = j.rideTaken resortLift b := by
  rw [Journal.takeRide, if_neg (Nat.not_lt.2 full), Journal.rideTaken_full full]

theorem Journal.overflow_bins (j : Journal) (lift : Option LiftNo) : (j.overflow lift).bins = j.bins := by
  cases lift <;> rfl

theorem Journal.rideTaken_bins (j : Journal) (resortLift : Option Nat) (b : RecordBody) (i : LiftNo) (hour : Fin 24) :
    (j.rideTaken resortLift b).bins[i][hour] =
      if b.lift = some i ∧ b.second / 3600 = hour.val then (j.bins[i][hour] + 1) % 4294967296 else j.bins[i][hour] := by
  unfold Journal.rideTaken
  split
  · exact Journal.raiseBin_bins ..
  · simp only [Journal.raiseBin_bins, Journal.overflow_bins]

theorem Journal.rideTaken_appended (room : j.held < 4080) (resortLift : Option Nat) : j.rideTaken resortLift b =
    { j with
      ring := j.ring ++ [{ sequence := j.nextSequence, resortLift := resortLift, body := b }]
      nextSequence := if j.nextSequence = 4294967295 then 1 else j.nextSequence + 1
      sendPosition := some (j.sendPosition.getD j.nextSequence)
      bins := (j.rideTaken resortLift b).bins } := by
  rw [Journal.rideTaken_room room]
  exact Journal.raiseBin_eq ..

theorem Journal.rideTaken_lift_overflow {i : LiftNo} (full : 4080 ≤ j.held) (resortLift : Option Nat) (lift : b.lift = some i) :
    j.rideTaken resortLift b =
      { j with
        liftOverflow := j.liftOverflow.set i ((j.liftOverflow[i] + 1) % 4294967296)
        raises := j.raises ++ [{ condition := .journalOverflow, detail := .overflow (some i) ((j.liftOverflow[i] + 1) % 4294967296) }]
        bins := (j.rideTaken resortLift b).bins } := by
  rw [Journal.rideTaken_full full, lift]
  exact Journal.raiseBin_eq ..

theorem Journal.rideTaken_station_overflow (full : 4080 ≤ j.held) (resortLift : Option Nat) (lift : b.lift = none) :
    j.rideTaken resortLift b =
      { j with
        stationOverflow := (j.stationOverflow + 1) % 4294967296
        raises := j.raises ++ [{ condition := .journalOverflow, detail := .overflow none ((j.stationOverflow + 1) % 4294967296) }]
        bins := (j.rideTaken resortLift b).bins } := by
  rw [Journal.rideTaken_full full, lift]
  exact Journal.raiseBin_eq ..

end

/-! ### Acknowledgements (R135, R137) -/

section
variable {j : Journal} {q : Nat}

theorem Journal.recordAt_eq_false : (j.recordAt q).isSome = false ↔ ∀ y ∈ j.ring, y.sequence ≠ q := by
  rw [Bool.eq_false_iff, ne_eq, Journal.recordAt_isSome]
  simp

/-- A position by whether it is present, and whether its record stays held. -/
theorem movedTo_cases (ring : List JournalRecord) (position : Option Nat) :
    (∀ p, position = some p → (∃ y ∈ ring, y.sequence = p) → movedTo ring position = some p)
      ∧ (∀ p, position = some p → (∀ y ∈ ring, y.sequence ≠ p) → movedTo ring position = ring.head?.map fun y => y.sequence)
      ∧ (position = none → movedTo ring position = none) :=
  ⟨fun _ stands kept => stands ▸ movedTo_held kept, fun _ stands freed => stands ▸ movedTo_freed freed,
    by rintro rfl; rfl⟩

/-- The reply holds the held count, which the high state leaves as it is. -/
theorem Journal.free_held (j : Journal) (q : Nat) : (j.free q).held = (ringAfter j.ring q).length :=
  (Journal.considerHigh_agrees (j.freed q)).held

theorem Journal.reference_eq (j : Journal) : j.reference = match j.ring with
    | y :: _ => y.sequence
    | [] => j.nextSequence := by
  unfold Journal.reference
  cases j.ring <;> rfl

theorem Journal.ackCode_zero (zero : q = 0) : j.ackCode q = .badSequence := if_pos zero

theorem Journal.ackCode_older (named : q ≠ 0) (older : 1 ≤ sequenceDistance q j.reference ∧ sequenceDistance q j.reference ≤ 2147483648) :
    j.ackCode q = .okNoChange := by
  rw [Journal.ackCode, if_neg named, if_pos older]

theorem Journal.ackCode_never (named : q ≠ 0)
    (never : sequenceDistance q j.reference = 0 ∨ 2147483648 < sequenceDistance q j.reference) : j.ackCode q = .badSequence := by
  rw [Journal.ackCode, if_neg named, if_neg (by omega)]

end
end Sys2Proof.Machine

open Sys2Proof Sys2Proof.Machine

/-- Settles O56: the record by whether the ring has room, the acknowledgement and the replay by whether the sequence is held, the high state by its marks. -/
theorem journalTakes : Obligations.JournalTakes := by
  refine ⟨fun s owner b rest handed => ?_, fun s r q routes sequence => ?_, fun s r q routes sequence => ?_,
    fun j => ⟨Journal.considerHigh_rises, Journal.considerHigh_below, Journal.considerHigh_falls, Journal.considerHigh_above⟩⟩
  · exact ⟨_, s.journal.rideTaken (s.resortLiftOf b) b, exec_passageRecordTake handed, by cases owner <;> rfl,
      by rw [State.recordsOf_withJournal, State.recordsOf_setRecords_same],
      fun other differs => by rw [State.recordsOf_withJournal, State.recordsOf_setRecords_other differs],
      s.journal.rideTaken_bins _ b,
      fun room => ⟨Journal.takeRide_room room _, Journal.rideTaken_appended room _⟩,
      fun full => ⟨Journal.takeRide_full full _, fun i => Journal.rideTaken_lift_overflow full _, Journal.rideTaken_station_overflow full _⟩⟩
  · subst sequence
    refine ⟨fun before after x ring here first => ?_, fun other => ?_⟩
    · have left : ringAfter s.journal.ring (field r.body 0 4) = after := ring ▸ ringAfter_first here first
      have held : (s.journal.recordAt (field r.body 0 4)).isSome = true := Journal.recordAt_isSome.2 ⟨x, by simp [ring], here⟩
      subst left
      obtain ⟨sendKept, sendFreed, sendAbsent⟩ := movedTo_cases (ringAfter s.journal.ring (field r.body 0 4)) s.journal.sendPosition
      obtain ⟨replayKept, replayFreed, replayAbsent⟩ := movedTo_cases (ringAfter s.journal.ring (field r.body 0 4)) s.journal.replayCursor
      exact ⟨s.journal.freed (field r.body 0 4), sendKept, sendFreed, sendAbsent, replayKept, replayFreed, replayAbsent, rfl,
        by rw [exec_journalAck_held routes held, Journal.free_held, Journal.free_eq]⟩
    · refine ⟨_, exec_journalAck_other routes (Journal.recordAt_eq_false.2 other), Journal.ackCode_zero,
        fun oldest distance named reference steps => ?_⟩
      have measured : distance = sequenceDistance (field r.body 0 4) s.journal.reference := by
        rw [steps, reference, Journal.reference_eq]
        rfl
      subst measured
      exact ⟨fun low high => Journal.ackCode_older named ⟨low, high⟩, Journal.ackCode_never named⟩
  · subst sequence
    refine ⟨fun named held => exec_journalReplay_held routes ⟨named, Journal.recordAt_isSome.2 held⟩,
      fun refused => exec_journalReplay_refused routes fun ⟨named, held⟩ => ?_⟩
    obtain ⟨y, stands, carries⟩ := Journal.recordAt_isSome.1 held
    exact refused.elim named fun other => other y stands carries
end

section
set_option Elab.async false
/-! The refund arithmetic, and what the refund unit makes of a REFUND_REQUEST: its checks, the quote and the retirement (R142, R145 to R160). -/
namespace Sys2Proof.Machine

/-! ### The refund arithmetic (R150 to R154) -/

section
variable {price fee c w gross : Nat} {terms : List DayTerm}

/-- The gross is the price less what remains charged, cut off at 0 (R152). -/
theorem grossPerHead_eq : grossPerHead price c w = price - (c - w) := by
  unfold grossPerHead
  split
  · next covered => exact (Nat.sub_eq_zero_of_le covered).symm
  · rfl

/-- The net is the gross less the fee, cut off at 0 (R153). -/
theorem netPerHead_eq : netPerHead gross fee = gross - fee := by
  unfold netPerHead
  split
  · next covered => exact (Nat.sub_eq_zero_of_le covered).symm
  · rfl

theorem figuresOf_gross (price fee headcount : Nat) (terms : List DayTerm) : (figuresOf price fee headcount terms).gross
    = price - (consumedValue terms - weatherCredit terms) := grossPerHead_eq

theorem figuresOf_net (price fee headcount : Nat) (terms : List DayTerm) : (figuresOf price fee headcount terms).net
    = (figuresOf price fee headcount terms).gross - fee := netPerHead_eq

theorem figuresOf_total (price fee headcount : Nat) (terms : List DayTerm) : (figuresOf price fee headcount terms).total
    = (figuresOf price fee headcount terms).net * headcount := rfl

/-- A day's credit is at most its rate (R151). -/
theorem DayTerm.weather_le_rate {t : DayTerm} (percent : t.credit ≤ 100) : t.weather ≤ t.rate :=
  Nat.div_le_of_le_mul <| by rw [Nat.mul_comm]; exact Nat.mul_le_mul_right _ percent

theorem weatherCredit_le_consumedValue (percents : ∀ t ∈ terms, t.credit ≤ 100) : weatherCredit terms ≤ consumedValue terms :=
  List.sum_le_sum fun t listed => DayTerm.weather_le_rate (percents t listed)

theorem consumedValue_le {rate days : Nat} (rates : ∀ t ∈ terms, t.rate ≤ rate) (short : terms.length ≤ days) :
    consumedValue terms ≤ days * rate :=
  calc consumedValue terms
      ≤ (terms.map (·.rate)).length • rate := List.sum_le_card_nsmul _ _ (by simpa using rates)
    _ = terms.length * rate := by rw [List.length_map, smul_eq_mul]
    _ ≤ days * rate := Nat.mul_le_mul_right _ short

end

/-! ### The fields of a reply (R146, R157) -/

theorem RefundCase.bytes_eq (c : RefundCase) (belowMinimum : Bool) (sequence : Nat) : c.bytes belowMinimum sequence =
    refundBytes none ++ be c.row.headcount 1 ++ uidBytes c.row.uid ++ be c.deadline 2 ++ be c.unused 1 ++ be c.figures.consumed 4
      ++ be c.figures.weather 4 ++ be c.figures.gross 4 ++ be c.figures.net 4 ++ be c.figures.total 4 ++ [flagByte belowMinimum]
      ++ be sequence 4 := rfl

theorem RefundCase.bytes_layout (c : RefundCase) (belowMinimum : Bool) (sequence : Nat) :
    (c.bytes belowMinimum sequence).length = 47 ∧ RefundLayout c belowMinimum sequence (c.bytes belowMinimum sequence) := by
  rw [RefundCase.bytes_eq]
  refine ⟨by simp, ?_⟩
  constructor <;> simp (disch := simp) [numberAt, flagAt, field_append_left, field_append_right, field_be, field_byte,
    field_cons_succ, uidBytes_field, flagByte_toNat]
  case noRefund => exact field_replicate 10 0 10

theorem retiredBytes_none {row : PassRow} (unpaid : row.refund = none) : retiredBytes row = [] := by rw [retiredBytes, unpaid]

theorem retiredBytes_some {row : PassRow} {f : Refund} (paid : row.refund = some f) :
    retiredBytes row = refundBytes (some f) ++ be row.headcount 1 := by rw [retiredBytes, paid]; rfl

theorem retiredBytes_layout {row : PassRow} {f : Refund} (paid : row.refund = some f) :
    (retiredBytes row).length = 11 ∧ RetiredLayout f row.headcount (retiredBytes row) := by
  rw [retiredBytes_some paid]
  refine ⟨by simp, ?_⟩
  constructor <;> simp (disch := simp) [refundBytes, numberAt, field_append_left, field_append_right, field_be, field_byte,
    field_cons_succ]

/-! ### The mode and the form (check 1 of R145) -/

theorem refundModeOf_eq_none {n : Nat} : refundModeOf n = none ↔ 1 < n := by
  match n with
  | 0 | 1 => simp [refundModeOf]
  | n + 2 => simp [refundModeOf]

theorem refundFormOk_iff {body : List Byte} : refundFormOk body = true ↔ uidField body 0 ≠ 0 ∧ field body 8 1 ≤ 1 := by
  rw [refundFormOk, Bool.and_eq_true, decide_eq_true_eq, Option.isSome_iff_ne_none, ne_eq (refundModeOf _), refundModeOf_eq_none,
    not_lt]

/-! ### The checks on the row (checks 4 to 10 of R145) -/

section
variable {p : Product} {row : PassRow} {day : Nat}

/-- No day is unused once the list is as long as the day count (R149). -/
theorem unusedDays_eq_zero_iff : unusedDays p row = 0 ↔ p.dayCount ≤ row.consumed.length := Nat.sub_eq_zero_iff_le

theorem refundRefusal_blocked (blocked : row.status = .blocked) : refundRefusal p row day = some (.blocked, []) := if_pos blocked

theorem refundRefusal_retired (retired : row.status = .retired) :
    refundRefusal p row day = some (.alreadyRetired, retiredBytes row) := by simp [refundRefusal, retired]

theorem refundRefusal_noProduct (active : row.status = .active) (undefined : p.isDefined = false) :
    refundRefusal p row day = some (.noProduct, []) := by simp [refundRefusal, active, undefined]

theorem refundRefusal_notRefundable (active : row.status = .active) (isDefined : p.isDefined = true)
    (unfit : p.kind ≠ .multiDay ∨ p.refundable = false) : refundRefusal p row day = some (.notRefundable, []) := by
  simp [refundRefusal, active, isDefined, unfit]

section
variable (active : row.status = .active) (isDefined : p.isDefined = true) (kind : p.kind = .multiDay) (refundable : p.refundable = true)
include active isDefined kind refundable

/-- An ACTIVE row of a refundable MULTI_DAY product is left to the deadline, the pending lane and the unused days. -/
theorem refundRefusal_refundable : refundRefusal p row day =
      if refundDeadline p row < day then some (.expired, [])
      else if row.pendingLane.isSome then some (.passBusy, [])
      else if unusedDays p row = 0 then some (.nothingUnused, [])
      else none := by
  simp [refundRefusal, active, isDefined, kind, refundable]

theorem refundRefusal_expired (late : refundDeadline p row < day) : refundRefusal p row day = some (.expired, []) := by
  rw [refundRefusal_refundable active isDefined kind refundable, if_pos late]

variable (inTime : day ≤ refundDeadline p row)
include inTime

theorem refundRefusal_passBusy (pending : row.pendingLane ≠ none) : refundRefusal p row day = some (.passBusy, []) := by
  rw [refundRefusal_refundable active isDefined kind refundable, if_neg (Nat.not_lt.2 inTime),
    if_pos (Option.isSome_iff_ne_none.2 pending)]

variable (idle : row.pendingLane = none)
include idle

theorem refundRefusal_idle : refundRefusal p row day = if unusedDays p row = 0 then some (.nothingUnused, []) else none := by
  rw [refundRefusal_refundable active isDefined kind refundable, if_neg (Nat.not_lt.2 inTime), if_neg (by simp [idle])]

theorem refundRefusal_nothingUnused (used : p.dayCount ≤ row.consumed.length) :
    refundRefusal p row day = some (.nothingUnused, []) := by
  rw [refundRefusal_idle active isDefined kind refundable inTime idle, if_pos (unusedDays_eq_zero_iff.2 used)]

theorem refundRefusal_eq_none (unused : row.consumed.length < p.dayCount) : refundRefusal p row day = none := by
  rw [refundRefusal_idle active isDefined kind refundable inTime idle,
    if_neg fun spent => Nat.not_le.2 unused (unusedDays_eq_zero_iff.1 spent)]

end

end

/-! ### The value of a pass (R145, R156) -/

section
variable {s : State} {uid : Uid} {day slot : Nat} {row : PassRow}

theorem State.valuePass_noDay (closed : s.calendar.currentDay = none) : s.valuePass uid = .error (.noDay, []) := by
  simp [State.valuePass, closed]

theorem State.valuePass_unknown (today : s.calendar.currentDay = some day) (free : lookup s.table.slots uid = none) :
    s.valuePass uid = .error (.unknown, []) := by
  simp [State.valuePass, today, free]

theorem State.valuePass_refused {refusal : ReplyCode × List Byte} (today : s.calendar.currentDay = some day)
    (held : lookup s.table.slots uid = some (slot, row)) (refused : refundRefusal (s.product row.product) row day = some refusal) :
    s.valuePass uid = .error refusal := by
  simp [State.valuePass, today, held, refused]

theorem State.valuePass_ok (today : s.calendar.currentDay = some day) (held : lookup s.table.slots uid = some (slot, row))
    (passes : refundRefusal (s.product row.product) row day = none) : s.valuePass uid = .ok
      { slot := slot, row := row, day := day, deadline := refundDeadline (s.product row.product) row,
        unused := unusedDays (s.product row.product) row, figures := s.figures (s.product row.product) row row.consumed } := by
  simp [State.valuePass, today, held, passes]

theorem State.valuePass_lookup {c : RefundCase} (valued : s.valuePass uid = .ok c) :
    lookup s.table.slots uid = some (c.slot, c.row) := by
  unfold State.valuePass at valued
  repeat' split at valued
  all_goals cases valued
  assumption

end

/-! ### The minimum payout and the two modes (R155, R157 to R160) -/

theorem Journal.offerMoney_room {j : Journal} (room : j.held < 4096) (b : RecordBody) :
    j.offerMoney b = some (j.nextSequence, (j.append none b).considerHigh) := if_pos room

theorem Journal.offerMoney_full {j : Journal} (full : 4096 ≤ j.held) (b : RecordBody) : j.offerMoney b = none :=
  if_neg (Nat.not_lt.2 full)

section
variable {s : State} {uid : Uid} {code : ReplyCode} {fields : List Byte} {c : RefundCase}

theorem State.quote_refused (refused : s.valuePass uid = .error (code, fields)) : s.quote uid = (code, fields) := by
  rw [State.quote, refused]

theorem State.quote_belowMinimum (valued : s.valuePass uid = .ok c) (small : c.figures.net < s.minimumPayout) :
    s.quote uid = (.belowMinimum, c.bytes true 0) := by
  simp [State.quote, valued, small]

theorem State.quote_ok (valued : s.valuePass uid = .ok c) (enough : s.minimumPayout ≤ c.figures.net) :
    s.quote uid = (.ok, c.bytes false 0) := by
  simp [State.quote, valued, Nat.not_lt.2 enough]

theorem State.applyRetire_refused (refused : s.valuePass uid = .error (code, fields)) : s.applyRetire uid = (code, fields, s) := by
  rw [State.applyRetire, refused]

theorem State.applyRetire_belowMinimum (valued : s.valuePass uid = .ok c) (small : c.figures.net < s.minimumPayout) :
    s.applyRetire uid = (.belowMinimum, c.bytes true 0, s) := by
  simp [State.applyRetire, valued, small]

theorem State.applyRetire_ok (valued : s.valuePass uid = .ok c) (enough : s.minimumPayout ≤ c.figures.net) :
    s.applyRetire uid = s.retire c := by
  simp [State.applyRetire, valued, Nat.not_lt.2 enough]

theorem State.retire_full (full : 4096 ≤ s.journal.held) : s.retire c = (.journalFull, c.bytes false 0, s) := by
  rw [State.retire, Journal.offerMoney_full full]

theorem State.retire_room (room : s.journal.held < 4096) : s.retire c =
    (.ok, c.bytes false s.journal.nextSequence,
      { s with journal := (s.journal.append none (c.record s.calendar.secondOfDay)).considerHigh }.writeRow c.slot c.retiredRow) := by
  rw [State.retire, Journal.offerMoney_room room]

end

/-! ### What the refund unit answers (R142, R145) -/

section
variable {s : State} {r : Routed}

theorem State.BadRefund.take (bad : s.BadRefund r) : s.takeBadRefund = some (r, s.dropNextFor .refundUnit) := by
  obtain ⟨⟨routed, kind⟩, form⟩ := bad
  exact State.takeBadRefund_eq_some.2 ⟨routed, kind, form, rfl⟩

theorem exec_refundQuote_bad (bad : s.BadRefund r) (mode : r.refundMode ≠ some .retire) :
    exec .refundQuote s = .next ((s.dropNextFor .refundUnit).answer r.place .badField []) := by
  simp [exec, execRefundQuote, bad.take, mode]

theorem exec_refundRetire_bad (bad : s.BadRefund r) (mode : r.refundMode = some .retire) :
    exec .refundRetire s = .next ((s.dropNextFor .refundUnit).answer r.place .badField []) := by
  simp [exec, execRefundRetire, bad.take, mode]

variable (formed : ∀ q, ¬ s.BadRefund q) (presents : s.Presents .refundRequest r)
include formed presents

theorem exec_refundQuote {o : ReplyCode × List Byte} (mode : r.refundMode ≠ some .retire)
    (answers : (s.served r).quote (uidField r.body 0) = o) :
    exec .refundQuote s = .next ((s.served r).answer r.place o.1 o.2) := by
  subst answers
  simp [exec, execRefundQuote, State.takeBadRefund_eq_none.2 formed, presents.take, mode]

theorem exec_refundRetire {o : ReplyCode × List Byte × State} (mode : r.refundMode = some .retire)
    (answers : (s.served r).applyRetire (uidField r.body 0) = o) :
    exec .refundRetire s = .next (o.2.2.answer r.place o.1 o.2.1) := by
  subst answers
  simp [exec, execRefundRetire, State.takeBadRefund_eq_none.2 formed, presents.take, mode]

end

end Sys2Proof.Machine

open Sys2Proof Sys2Proof.Machine

/-- Settles O57: both differences are cut off at 0, the credit is at most the value day by day, and 14 days at the greatest rate bound both. -/
theorem refundFigures : Obligations.RefundFigures := by
  intro price fee headcount terms cheap short legal
  have credit : weatherCredit terms ≤ consumedValue terms := weatherCredit_le_consumedValue fun t listed => (legal t listed).2
  have value : consumedValue terms ≤ 14 * 99999 := consumedValue_le (fun t listed => (legal t listed).1) short
  have gross := figuresOf_gross price fee headcount terms
  have net := figuresOf_net price fee headcount terms
  have bound : (figuresOf price fee headcount terms).net ≤ 999999 := by omega
  refine ⟨consumedValue terms, weatherCredit terms, rfl, rfl, rfl, rfl, credit, by omega, by omega, by omega, by omega, by omega,
    by omega, by omega, bound, by omega, by omega, figuresOf_total .., fun few => ?_⟩
  rw [figuresOf_total]
  exact Nat.mul_le_mul bound few

/-- Settles O58: the checks of R145 in order, and past them the minimum payout and the journal decide what each mode answers. -/
theorem refundsServed : Obligations.RefundsServed := by
  refine ⟨RefundCase.bytes_layout, rfl, fun _ => refundModeOf_eq_none.2, fun _ => rfl, fun _ => refundFormOk_iff,
    fun s r bad => ⟨exec_refundQuote_bad bad, exec_refundRetire_bad bad⟩, ?_, fun s uid => ⟨State.valuePass_noDay, ?_⟩⟩
  · rintro s r uid formed presents rfl
    have quote {code fields} (answers : (s.served r).quote (uidField r.body 0) = (code, fields)) (mode) :=
      exec_refundQuote formed presents mode answers
    have retire {code fields t} (answers : (s.served r).applyRetire (uidField r.body 0) = (code, fields, t)) (mode) :=
      exec_refundRetire formed presents mode answers
    refine ⟨fun code fields refused => ⟨quote (State.quote_refused refused), retire (State.applyRetire_refused refused)⟩,
      fun c valued => ⟨fun small =>
        ⟨quote (State.quote_belowMinimum valued small), retire (State.applyRetire_belowMinimum valued small)⟩, fun enough => ?_⟩⟩
    have taken : (s.served r).applyRetire (uidField r.body 0) = (s.served r).retire c := State.applyRetire_ok valued enough
    refine ⟨quote (State.quote_ok valued enough), fun mode full => retire (taken.trans (State.retire_full full)) mode,
      fun mode room => ?_⟩
    obtain ⟨-, carries, -⟩ := lookup_some (State.valuePass_lookup valued)
    rw [← carries]
    exact retire (taken.trans (State.retire_room room)) mode
  · intro day today
    refine ⟨State.valuePass_unknown today, ?_⟩
    rintro slot row p held rfl
    have refused {refusal} := State.valuePass_refused (refusal := refusal) today held
    refine ⟨fun blocked => refused (refundRefusal_blocked blocked),
      fun retired => ⟨_, refused (refundRefusal_retired retired), retiredBytes_none, fun f => retiredBytes_layout⟩,
      fun active undefined => refused (refundRefusal_noProduct active undefined),
      fun active isDefined unfit => refused (refundRefusal_notRefundable active isDefined unfit), ?_⟩
    rintro active isDefined kind refundable deadline rfl
    exact ⟨fun late => refused (refundRefusal_expired active isDefined kind refundable late),
      fun inTime pending => refused (refundRefusal_passBusy active isDefined kind refundable inTime pending),
      fun inTime idle used => refused (refundRefusal_nothingUnused active isDefined kind refundable inTime idle used),
      fun inTime idle unused => (State.valuePass_ok today held
        (refundRefusal_eq_none active isDefined kind refundable inTime idle unused)).trans rfl⟩
end

section
set_option Elab.async false
/-! Usage merges: the checks, the merge on a SEASON and on a MULTI_DAY row, and the late-use adjustment (R162 to R165, R168 to R173). -/
namespace Sys2Proof.Machine

/-! ### The reply to a USAGE_MERGE (R173) -/

theorem mergeBytes_layout (uid : Uid) (d : Nat) (f : MergeFigures) :
    (mergeBytes uid d (some f)).length = 30 ∧ MergeLayout uid d f (mergeBytes uid d (some f)) := by
  refine ⟨by simp [mergeBytes, MergeFigures.bytes], ?_⟩
  constructor <;> simp (disch := simp) [mergeBytes, MergeFigures.bytes, numberAt, field_append_left, field_append_right, field_be,
    uidBytes_field, optionalAt_append_left, optionalAt_append_right, optionalAt_bytes]

theorem mergeBytes_refused (uid : Uid) (d : Nat) : mergeBytes uid d none = uidBytes uid ++ be d 1 := List.append_nil _

theorem exec_usageMerge {s : State} {r : Routed} (presents : s.Presents .usageMerge r) {m : Merged}
    (merges : (s.served r).merge (uidField r.body 0) (field r.body 8 1) = m) :
    exec .usageMerge s
      = .next (m.state.answer r.place m.code (mergeBytes (uidField r.body 0) (field r.body 8 1) m.figures)) := by
  subst merges
  simp [exec, execUsageMerge, presents.take]

/-! ### The checks (R169) -/

section
variable {s : State} {uid : Uid} {d : Nat}

theorem State.merge_unknown (absent : uid = 0 ∨ lookup s.table.slots uid = none) :
    s.merge uid d = { code := .unknown, figures := none, state := s } := by
  have found : (if uid = 0 then none else lookup s.table.slots uid) = none := by
    rcases absent with zero | free
    · exact if_pos zero
    · rw [free, ite_self]
  rw [State.merge, found]

variable {slot : Nat} {row : PassRow} (legal : uid ≠ 0) (held : lookup s.table.slots uid = some (slot, row))
include legal held

theorem State.merge_range (late : 239 < d) : s.merge uid d = { code := .range, figures := none, state := s } := by
  rw [State.merge, if_neg legal, held]
  simp [late]

theorem State.merge_futureDay (inSeason : d ≤ 239)
    (ahead : s.calendar.currentDay = none ∨ ∃ c, s.calendar.currentDay = some c ∧ c < d) :
    s.merge uid d = { code := .futureDay, figures := none, state := s } := by
  rw [State.merge, if_neg legal, held]
  rcases ahead with closed | ⟨c, today, late⟩
  · simp [Nat.not_lt.2 inSeason, closed]
  · simp [Nat.not_lt.2 inSeason, today, late]

variable {c : Nat} (today : s.calendar.currentDay = some c) (past : d ≤ c) (inSeason : c ≤ 239)
include today past inSeason

theorem State.merge_noProduct (undefined : (s.product row.product).isDefined = false) :
    s.merge uid d = { code := .noProduct, figures := none, state := s } := by
  rw [State.merge, if_neg legal, held]
  simp [Nat.not_lt.2 (past.trans inSeason), today, past, undefined]

theorem State.merge_season (isDefined : (s.product row.product).isDefined = true) (kind : (s.product row.product).kind = .season) :
    s.merge uid d = s.mergeSeason slot row d := by
  rw [State.merge, if_neg legal, held]
  simp [Nat.not_lt.2 (past.trans inSeason), today, past, isDefined, kind]

theorem State.merge_multiDay (isDefined : (s.product row.product).isDefined = true) (kind : (s.product row.product).kind = .multiDay) :
    s.merge uid d = s.mergeMultiDay slot row d := by
  rw [State.merge, if_neg legal, held]
  simp [Nat.not_lt.2 (past.trans inSeason), today, past, isDefined, kind]

end

/-! ### A SEASON row (R170) -/

section
variable {s : State} {slot d : Nat} {row : PassRow}

theorem State.mergeSeason_counted {last : Nat} (counted : row.lastCountedDay = some last) (notLater : d ≤ last) :
    s.mergeSeason slot row d = { code := .okNoChange, figures := some (seasonFigures row), state := s } :=
  if_neg (by simp [counted, notLater])

theorem State.mergeSeason_later (later : ∀ last, row.lastCountedDay = some last → last < d) {counted : PassRow}
    (counts : counted = { row with seasonDays := min 240 (row.seasonDays + 1), lastCountedDay := some d }) :
    s.mergeSeason slot row d = { code := .ok, figures := some (seasonFigures counted), state := s.writeRow slot counted } := by
  subst counts
  exact if_pos (by simpa [Option.all_eq_true] using later)

/-! ### The late-use adjustment (R162 to R165) -/

theorem State.adjust_none
    (kept : row.refund = none
      ∨ ∃ f, row.refund = some f ∧ f.balancePerHead ≤ (s.figures (s.product row.product) row (insertDay d row.consumed)).net) :
    s.adjust row d = .noAdjustment := by
  rcases kept with none | ⟨f, refund, covered⟩
  · simp [State.adjust, none]
  · simp [State.adjust, refund, Nat.not_lt.2 covered]

variable {f : Refund} (refund : row.refund = some f)
  (excess : (s.figures (s.product row.product) row (insertDay d row.consumed)).net < f.balancePerHead)
include refund excess

theorem State.adjust_excess : s.adjust row d
    = s.lowerBalance row f.balancePerHead (s.figures (s.product row.product) row (insertDay d row.consumed)).net := by
  simp [State.adjust, refund, excess]

theorem State.adjust_full (full : 4096 ≤ s.journal.held) : s.adjust row d = .full := by
  rw [State.adjust_excess refund excess, State.lowerBalance, Journal.offerMoney_full full]

theorem State.adjust_room (room : s.journal.held < 4096) {net : Nat}
    (value : net = (s.figures (s.product row.product) row (insertDay d row.consumed)).net) : s.adjust row d =
      .adjusted
        { perHead := f.balancePerHead - net, total := (f.balancePerHead - net) * row.headcount, balance := net,
          sequence := s.journal.nextSequence }
        (s.journal.append none
          (adjustmentRecord row (f.balancePerHead - net) s.calendar.currentDay s.calendar.secondOfDay)).considerHigh := by
  subst value
  rw [State.adjust_excess refund excess, State.lowerBalance, Journal.offerMoney_room room]

end

/-! ### A MULTI_DAY row (R171, R172) -/

section
variable {s : State} {slot d : Nat} {row : PassRow}

theorem State.mergeMultiDay_held (listed : d ∈ row.consumed) : s.mergeMultiDay slot row d =
    { code := .okNoChange, figures := some (multiDayFigures row (s.product row.product) Adjusted.absent), state := s } := by
  simp [State.mergeMultiDay, listed]

variable (new : d ∉ row.consumed)
include new

theorem State.mergeMultiDay_full (full : (s.product row.product).dayCount ≤ row.consumed.length) : s.mergeMultiDay slot row d =
    { code := .overconsumed, figures := none, state := s.raiseOverconsumed row.uid d } := by
  simp [State.mergeMultiDay, new, full]

variable (room : row.consumed.length < (s.product row.product).dayCount)
include room

theorem State.mergeMultiDay_room : s.mergeMultiDay slot row d = s.mergeInsert slot row d := by
  simp [State.mergeMultiDay, new, Nat.not_le.2 room]

theorem State.mergeMultiDay_kept (kept : s.adjust row d = .noAdjustment) : s.mergeMultiDay slot row d =
    { code := .ok, figures := some (multiDayFigures (mergedRow row d none) (s.product row.product) Adjusted.absent),
      state := s.writeRow slot (mergedRow row d none) } := by
  rw [State.mergeMultiDay_room new room, State.mergeInsert, kept]

theorem State.mergeMultiDay_journalFull (full : s.adjust row d = .full) : s.mergeMultiDay slot row d =
    { code := .journalFull, figures := none, state := s } := by
  rw [State.mergeMultiDay_room new room, State.mergeInsert, full]

theorem State.mergeMultiDay_adjusted {a : Adjusted} {journal : Journal} (adjusts : s.adjust row d = .adjusted a journal) :
    s.mergeMultiDay slot row d =
      { code := .ok, figures := some (multiDayFigures (mergedRow row d (some a.balance)) (s.product row.product) a),
        state := { s with journal := journal }.writeRow slot (mergedRow row d (some a.balance)) } := by
  rw [State.mergeMultiDay_room new room, State.mergeInsert, adjusts]

end

theorem mergedRow_lowered {row : PassRow} {f : Refund} (refund : row.refund = some f) (d net : Nat) : mergedRow row d (some net) =
    { row with consumed := insertDay d row.consumed, refund := some { f with balancePerHead := net } } := by
  simp [mergedRow, refund]

end Sys2Proof.Machine

open Sys2Proof Sys2Proof.Machine

/-- Settles O38: each check, and each case of the two kinds of row, fixes what the merge answers and leaves. -/
theorem usageMerged : Obligations.UsageMerged := by
  refine ⟨mergeBytes_layout, fun _ => rfl, fun _ _ _ => rfl, rfl, fun _ _ _ _ => rfl, ?_⟩
  rintro s r uid d presents rfl rfl
  have refused {code t} (merges : (s.served r).merge (uidField r.body 0) (field r.body 8 1) = ⟨code, none, t⟩) :=
    mergeBytes_refused _ _ ▸ exec_usageMerge presents merges
  refine ⟨fun absent => refused (State.merge_unknown absent), ?_⟩
  rintro slot row p legal held rfl
  refine ⟨fun late => refused (State.merge_range legal held late),
    fun inSeason ahead => refused (State.merge_futureDay legal held inSeason ahead), fun c today past inSeason =>
    ⟨fun undefined => refused (State.merge_noProduct legal held today past inSeason undefined), ?_, ?_⟩⟩
  · intro isDefined kind
    have season := State.merge_season (s := s.served r) legal held today past inSeason isDefined kind
    exact ⟨fun last counted notLater => exec_usageMerge presents (season.trans (State.mergeSeason_counted counted notLater)),
      fun later => ⟨_, rfl, exec_usageMerge presents (season.trans (State.mergeSeason_later later rfl))⟩⟩
  · intro isDefined kind
    have multiDay := State.merge_multiDay (s := s.served r) legal held today past inSeason isDefined kind
    obtain ⟨-, carries, -⟩ := lookup_some held
    refine ⟨fun listed => exec_usageMerge presents (multiDay.trans (State.mergeMultiDay_held listed)),
      fun new full => ?_, fun new room => ⟨fun kept => ⟨_, rfl, ?_⟩, ?_⟩⟩
    · have merges := multiDay.trans (State.mergeMultiDay_full new full)
      rw [carries] at merges
      exact refused merges
    · exact exec_usageMerge presents (multiDay.trans (State.mergeMultiDay_kept new room (State.adjust_none kept)))
    · rintro f net refund rfl excess
      refine ⟨fun full => refused (multiDay.trans (State.mergeMultiDay_journalFull new room (State.adjust_full refund excess full))),
        fun space => ⟨_, rfl, ?_⟩⟩
      rw [← mergedRow_lowered refund, ← today]
      have adjusts := State.adjust_room (s := s.served r) refund excess space rfl
      exact exec_usageMerge presents (multiDay.trans (State.mergeMultiDay_adjusted (s := s.served r) new room adjusts))
end

section
set_option Elab.async false
/-! How a stream is opened and loaded: STREAM_OPEN, STREAM_DATA, and the rows of a chunk (R177 to R179, R182). -/
namespace Sys2Proof.Machine

/-! ### STREAM_OPEN (R177) -/

theorem isFlag_eq_false {n : Nat} : isFlag n = false ↔ 1 < n := by simp [isFlag]

/-- In IDLE no deadline is restarted: the request is heard without an effect (R182). -/
theorem State.streamHeard_idle {s : State} (idle : s.stream.state = .idle) : s.streamHeard = s := by
  simp [State.streamHeard, idle]

@[simp] theorem State.streamHeard_state (s : State) : s.streamHeard.stream.state = s.stream.state := by
  rw [State.streamHeard_eq]

/-! ### STREAM_DATA (R178) -/

@[simp] theorem streamRows_length (n : Nat) (bytes : List Byte) : (streamRows n bytes).length = n := by
  induction n generalizing bytes with
  | zero => rfl
  | succ n ih => simp [streamRows, ih]

/-- The row at a position is the 36 bytes behind the rows before it. -/
theorem streamRows_getElem? {n k : Nat} (h : k < n) (bytes : List Byte) :
    (streamRows n bytes)[k]? = some ((bytes.drop (36 * k)).take 36) := by
  induction n generalizing k bytes with
  | zero => omega
  | succ n ih =>
    cases k with
    | zero => rfl
    | succ k => rw [streamRows, List.getElem?_cons_succ, ih (Nat.lt_of_succ_lt_succ h), List.drop_drop, Nat.mul_succ, Nat.add_comm]

section
variable {x : Stream} {number count : Nat}

theorem Stream.refusesData_badField (h : count = 0 ∨ 16 < count) : x.refusesData number count = some (.badField, []) :=
  if_pos (by omega)

variable (least : 1 ≤ count) (greatest : count ≤ 16)
include least greatest

theorem Stream.refusesData_noStream (h : x.state = .idle ∨ x.state = .sweeping) :
    x.refusesData number count = some (.noStream, []) := by
  rw [Stream.refusesData, if_neg (by omega)]
  rcases h with h | h <;> simp [h]

theorem Stream.refusesData_suspended (h : x.state = .suspended) : x.refusesData number count = some (.suspended, []) := by
  rw [Stream.refusesData, if_neg (by omega)]
  simp [h]

theorem Stream.refusesData_opened (h : x.state = .opened) :
    x.refusesData number count = if number = x.expectedChunk then none else some (.outOfOrder, be x.expectedChunk 2) := by
  rw [Stream.refusesData, if_neg (by omega)]
  simp [h]

end

/-- The checks read neither the idle deadline nor the queue of requests. -/
theorem State.streamHeard_refusesData (s : State) (number count : Nat) :
    s.streamHeard.stream.refusesData number count = s.stream.refusesData number count := by
  rw [State.streamHeard_eq]
  rfl

/-- A chunk that begins stops the deadline that hearing its request restarted. -/
theorem State.streamHeard_beginChunk (s : State) (place : Option Nat) (number : Nat) (rows : List (List Byte)) :
    s.streamHeard.stream.beginChunk place number rows = s.stream.beginChunk place number rows := by
  rw [State.streamHeard_eq]
  rfl

section
variable {s : State} {r : Routed} (asks : s.StreamAsks .streamData r)
include asks

theorem exec_streamData_refused {code : ReplyCode} {fields : List Byte}
    (refuses : s.stream.refusesData (field r.body 0 2) (field r.body 2 1) = some (code, fields)) :
    exec .streamData s = .next ((s.dropNextFor .streamUnit).streamHeard.answer r.place code fields) := by
  simp [exec, execStreamData, asks.take, State.streamHeard_refusesData, refuses]

theorem exec_streamData_begins (accepts : s.stream.refusesData (field r.body 0 2) (field r.body 2 1) = none) :
    exec .streamData s = .next
      { s.dropNextFor .streamUnit with
        stream := s.stream.beginChunk r.place (field r.body 0 2) (streamRows (field r.body 2 1) (r.body.drop 3)) } := by
  simp [exec, execStreamData, asks.take, State.streamHeard_refusesData, accepts, State.streamHeard_beginChunk]

end

/-! ### The rows of a chunk (R178, R179) -/

theorem chunkBytes_layout (expected number applied : Nat) (refused : List (Nat × ReplyCode)) :
    (chunkBytes expected number applied refused).length = 39
      ∧ ChunkLayout expected number applied refused (chunkBytes expected number applied refused) := by
  have long : ∀ q : Nat × ReplyCode, (be q.1 1 ++ [q.2.code]).length = 2 := by simp
  have rows : listAt (listBytes (refused.map fun q => be q.1 1 ++ [q.2.code]) 16 2) 0 16 2
      (refused.map fun q => q.1 % 256 * 256 + q.2.code.toNat) := listAt_bytes long (fun q => by
    have := q.2.code.isLt
    rw [numberOf_append_singleton, numberOf_be]
    omega) refused (by decide)
  have size : (listBytes (refused.map fun q => be q.1 1 ++ [q.2.code]) 16 2).length = 33 :=
    listBytes_length (List.forall_mem_map.2 fun q _ => long q)
  refine ⟨by simp [chunkBytes, size], ?_⟩
  constructor <;> simp (disch := simp) [chunkBytes, numberAt, field_append_left, field_append_right, field_be, listAt_append_right, rows]

theorem Chunk.performed_eq (c : Chunk) (code : ReplyCode) (rest : List (List Byte)) : c.performed code rest =
    { c with rows := rest, position := c.position + 1,
             refusedRows := c.refusedRows ++ if code = .ok then [] else [(c.position, code)] } := by
  simp only [Chunk.performed]
  split <;> simp

theorem State.afterRow_next {s : State} {c : Chunk} (more : c.rows ≠ []) :
    s.afterRow c = { s with stream := { s.stream with chunk := some c } } := by
  cases rows : c.rows with
  | nil => exact absurd rows more
  | cons => simp [State.afterRow, rows]

theorem State.afterRow_last {s : State} {c : Chunk} (last : c.rows = []) : s.afterRow c =
    { s with stream := s.stream.chunkOutcome c s.timebase }.answer c.place .ok
      (chunkBytes (s.stream.chunkOutcome c s.timebase).expectedChunk c.number c.applied c.refusedRows) := by
  simp [State.afterRow, last]

theorem exec_streamChunkRow {s u : State} {c : Chunk} {row : List Byte} {rest : List (List Byte)} {code : ReplyCode}
    (granted : s.nextGrant = some .streamUnit) (chunk : s.stream.chunk = some c) (rows : c.rows = row :: rest)
    (put : (code, u) = (s.granted .streamUnit).applyPut (s.stream.rowForm row)) :
    exec .streamChunkRow s = .next (u.afterRow (c.performed code rest)) := by
  simp only [exec, execStreamChunkRow, State.grant_eq_some.2 ⟨granted, rfl⟩, chunk, rows, ← put]

theorem Stream.firstRefusedAfter_eq (x : Stream) (c : Chunk) : x.firstRefusedAfter c =
    x.firstRefused.or (c.refusedRows.head?.map fun q => { chunk := c.number, position := q.1, reason := q.2 }) := by
  cases first : x.firstRefused <;> cases rows : c.refusedRows <;> simp [Stream.firstRefusedAfter, first, rows]

end Sys2Proof.Machine

open Sys2Proof Sys2Proof.Machine

/-- Settles O59: a request is heard and then checked, a chunk is cut into its rows, and each row but the last leaves the chunk to go on. -/
theorem streamsLoad : Obligations.StreamsLoad := by
  refine ⟨fun s r u asks heard => ?_, fun s r u number count asks => ?_, fun s c row rest code u refused granted chunk rows put => ?_⟩
  · obtain rfl : u = (s.dropNextFor .streamUnit).streamHeard := heard.trans (State.streamHeard_eq _).symm
    refine ⟨fun bad => ?_, fun legal busy => ?_, fun legal idle => ?_⟩
    · simp [exec, execStreamOpen, asks.take, isFlag_eq_false.2 bad]
    · simp [exec, execStreamOpen, asks.take, isFlag, legal, busy]
    · simp [exec, execStreamOpen, asks.take, isFlag, legal, State.streamHeard_idle, idle, Stream.opening]
  · rintro rfl rfl heard
    obtain rfl : u = (s.dropNextFor .streamUnit).streamHeard := heard.trans (State.streamHeard_eq _).symm
    refine ⟨fun bad => exec_streamData_refused asks (Stream.refusesData_badField bad), fun least greatest =>
      ⟨fun none => exec_streamData_refused asks (Stream.refusesData_noStream least greatest none),
        fun suspended => exec_streamData_refused asks (Stream.refusesData_suspended least greatest suspended),
        fun opened other => ?_, fun opened expected => ?_⟩⟩
    · exact exec_streamData_refused asks ((Stream.refusesData_opened least greatest opened).trans (if_neg other))
    · refine ⟨streamRows (field r.body 2 1) (r.body.drop 3), streamRows_length .., fun k small => ?_,
        exec_streamData_begins asks ((Stream.refusesData_opened least greatest opened).trans (if_pos expected))⟩
      rw [streamRows_getElem? small, List.drop_drop]
  · rintro rfl
    have stream : u.stream = s.stream := (congrArg (·.2.stream) put).trans (State.applyPut_stream ..)
    have timebase : u.timebase = s.timebase := (congrArg (·.2.timebase) put).trans (State.applyPut_timebase ..)
    have performed := exec_streamChunkRow granted chunk rows put
    rw [Chunk.performed_eq] at performed
    refine ⟨fun more => ?_, ?_⟩
    · rw [performed, State.afterRow_next more, stream]
    · rintro rfl
      refine ⟨_, _, rfl, (chunkBytes_layout ..).1, (chunkBytes_layout ..).2, ?_⟩
      rw [performed, State.afterRow_last rfl, stream, timebase]
      simp only [Stream.chunkOutcome, Stream.firstRefusedAfter_eq, Chunk.applied]
      cases s.stream.firstRefused <;> rfl
end

section
set_option Elab.async false
/-! What the trunk port's own operations make of its queues, its reply places and its pending notices, and its law kept by each of them (R187 to R189). -/
namespace Sys2Proof.Machine

section
variable {t : TrunkPort} {n : Nat} {p : ReservedPlace}

/-! ### Reply places (R188) -/

theorem TrunkPort.place_number (held : t.place n = some p) : p.number = n := by simpa using List.find?_some held

theorem TrunkPort.fill_held (held : t.place n = some p) (code : ReplyCode) (fields : List Byte) : t.fill n code fields =
    { t with reserved := t.reserved.filter (fun q => q.number != n), filled := t.filled ++ [p.reply code fields] } := by
  simp only [TrunkPort.fill, held]

theorem TrunkPort.fill_absent (absent : t.place n = none) (code : ReplyCode) (fields : List Byte) : t.fill n code fields = t := by
  simp only [TrunkPort.fill, absent]

/-- A reserved place as one more of its owners leaves it (R52, R60, R193). -/
def ReservedPlace.after (p : ReservedPlace) (changed flagged : Bool) (store : Settings → Settings) : ReservedPlace :=
  { p with awaiting := p.awaiting - 1, changed := p.changed || changed, flagged := p.flagged || flagged, stored := store p.stored }

section
variable {changed flagged : Bool} {store : Settings → Settings}

theorem TrunkPort.jointAnswer_last (held : t.place n = some p) (last : p.awaiting ≤ 1) : t.jointAnswer n changed flagged store =
    t.fill n (jointCode p.kind (p.changed || changed) (p.flagged || flagged)) (jointFields p.kind (store p.stored)) := by
  have none : p.awaiting - 1 = 0 := by omega
  simp only [TrunkPort.jointAnswer, TrunkPort.fill, held, none, if_true]
  rfl

theorem TrunkPort.jointAnswer_more (held : t.place n = some p) (more : 2 ≤ p.awaiting) : t.jointAnswer n changed flagged store =
    { t with reserved := t.reserved.map fun x => if x.number = n then p.after changed flagged store else x } := by
  have some : p.awaiting - 1 ≠ 0 := by omega
  simp only [TrunkPort.jointAnswer, held, if_neg some]
  rfl

theorem TrunkPort.jointAnswer_absent (absent : t.place n = none) : t.jointAnswer n changed flagged store = t := by
  simp only [TrunkPort.jointAnswer, absent]

end

/-! ### The pending notice list (R189) -/

section
variable {l : List Raise} {m : Raise}

/-- A NOTICE placed leaves the conditions of the list in their order, its own behind them where it is new. -/
theorem placeIn_conditions (l : List Raise) (m : Raise) : (placeIn l m).map (·.condition) =
    if m.condition ∈ l.map (·.condition) then l.map (·.condition) else l.map (·.condition) ++ [m.condition] := by
  induction l with
  | nil => rfl
  | cons x rest ih =>
    unfold placeIn
    by_cases same : x.condition = m.condition
    · simp [same]
    · simp only [if_neg same, List.map_cons, ih, List.mem_cons, Ne.symm same, false_or]
      split <;> rfl

/-- No condition stands twice in the list. -/
def OncePerCondition (l : List Raise) : Prop := l.Pairwise fun a b => a.condition ≠ b.condition

theorem oncePerCondition_iff : OncePerCondition l ↔ (l.map (·.condition)).Nodup := List.pairwise_map.symm

theorem OncePerCondition.placeIn (once : OncePerCondition l) (m : Raise) : OncePerCondition (placeIn l m) := by
  rw [oncePerCondition_iff] at once ⊢
  rw [placeIn_conditions]
  split
  · exact once
  · next fresh => exact List.concat_eq_append ▸ once.concat fresh

end

/-! ### The law of the trunk port (R187 to R189) -/

theorem TrunkPort.Law.fill (law : t.Law) (n : Nat) (code : ReplyCode) (fields : List Byte) : (t.fill n code fields).Law := by
  cases held : t.place n with
  | none => rw [TrunkPort.fill_absent held]; exact law
  | some p =>
    rw [TrunkPort.fill_held held]
    have freed : (t.reserved.filter fun q => q.number != n).length < t.reserved.length :=
      List.length_filter_lt_length_iff_exists.2 ⟨p, List.mem_of_find?_eq_some held, by simp [TrunkPort.place_number held]⟩
    refine { law with places := ?_ }
    have places := law.places
    simp only [TrunkPort.placesUsed, List.length_append, List.length_singleton] at places ⊢
    omega

theorem TrunkPort.Law.jointAnswer (law : t.Law) (n : Nat) (changed flagged : Bool) (store : Settings → Settings) :
    (t.jointAnswer n changed flagged store).Law := by
  cases held : t.place n with
  | none => rw [TrunkPort.jointAnswer_absent held]; exact law
  | some p =>
    rcases Nat.lt_or_ge p.awaiting 2 with last | more
    · rw [TrunkPort.jointAnswer_last held (by omega)]
      exact law.fill ..
    · rw [TrunkPort.jointAnswer_more held more]
      refine { law with places := ?_ }
      simpa only [TrunkPort.placesUsed, List.length_map] using law.places

/-- The trunk port once an owner has handed its reply, to a place that may have been lost. -/
def TrunkPort.answered (t : TrunkPort) (place : Option Nat) (code : ReplyCode) (fields : List Byte) : TrunkPort :=
  place.elim t fun n => t.fill n code fields

/-- The trunk port once one of several owners has handed its part of a reply. -/
def TrunkPort.jointlyAnswered (t : TrunkPort) (place : Option Nat) (changed flagged : Bool) (store : Settings → Settings) : TrunkPort :=
  place.elim t fun n => t.jointAnswer n changed flagged store

theorem TrunkPort.Law.answered (law : t.Law) (place : Option Nat) (code : ReplyCode) (fields : List Byte) :
    (t.answered place code fields).Law := by
  cases place with
  | none => exact law
  | some n => exact law.fill ..

theorem TrunkPort.Law.jointlyAnswered (law : t.Law) (place : Option Nat) (changed flagged : Bool) (store : Settings → Settings) :
    (t.jointlyAnswered place changed flagged store).Law := by
  cases place with
  | none => exact law
  | some n => exact law.jointAnswer ..

theorem TrunkPort.Law.awaitOwners (law : t.Law) (place : Option Nat) (n : Nat) : (t.awaitOwners place n).Law :=
  { law with places := by simpa only [TrunkPort.placesUsed, TrunkPort.awaitOwners, List.length_map] using law.places }

theorem TrunkPort.Law.placeNotice (law : t.Law) (m : Raise) : (t.placeNotice m).Law :=
  { law with notices := OncePerCondition.placeIn law.notices m }

theorem TrunkPort.Law.setCondition (law : t.Law) (c : Condition) (x : NoticeCondition) : (t.setCondition c x).Law := { law with }

theorem TrunkPort.Law.takeRaise (law : t.Law) (m : Raise) : (t.takeRaise m).Law := by
  simp only [TrunkPort.takeRaise]
  split
  · exact (law.setCondition ..).placeNotice _
  · exact law.setCondition ..

theorem TrunkPort.Law.raiseRestarted (law : t.Law) : t.raiseRestarted.Law := by
  simp only [TrunkPort.raiseRestarted]
  split
  · exact law.setCondition ..
  · exact (law.setCondition ..).placeNotice _

theorem TrunkPort.Law.setMask (law : t.Law) (c : Condition) (masked : Bool) : (t.setMask c masked).Law := by
  simp only [TrunkPort.setMask]
  split
  · exact (law.setCondition ..).placeNotice _
  · exact law.setCondition ..

theorem TrunkPort.Law.setMasks (law : t.Law) (flags : Nat) : (t.setMasks flags).Law :=
  List.foldlRecOn (motive := TrunkPort.Law) allConditions _ law fun _ law c _ => law.setMask c _

/-- A station reset empties the queues; one reply at most is then filled (R192). -/
theorem TrunkPort.Law.stationReset (law : t.Law) (asked : Option Tag) : (t.stationReset asked).Law := by
  refine TrunkPort.Law.raiseRestarted { received := Nat.zero_le _, places := ?_, notices := .nil, counters := law.counters }
  cases asked <;> cases sending : t.transmitter <;> simp [TrunkPort.placesUsed]

theorem TrunkPort.Law.receive (law : t.Law) (f : RxFrame) : (t.receive f).Law := by
  simp only [TrunkPort.receive]
  split
  · next room => exact { law with received := by simpa using room }
  · exact { law with counters := ⟨law.counters.1, bump_le law.counters.2⟩ }

theorem TrunkPort.Law.malformedCounted (law : t.Law) : TrunkPort.Law { t with malformed := bump 65535 t.malformed } :=
  { law with counters := ⟨bump_le law.counters.1, law.counters.2⟩ }

/-- A frame sent occupies nothing any longer. -/
theorem TrunkPort.Law.sent (law : t.Law) : t.sent.Law := by
  have places := law.places
  simp only [TrunkPort.sent]
  split
  · exact law
  · next x sending =>
    simp only [TrunkPort.placesUsed, sending] at places
    have freed : t.reserved.length + t.filled.length ≤ 16 := by omega
    split
    · exact { law with places := freed, notices := law.notices.sublist List.eraseP_sublist }
    · exact { law with places := freed }
    · exact { law with places := freed }

theorem TrunkPort.sent_transmitter (t : TrunkPort) : t.sent.transmitter = none := by
  simp only [TrunkPort.sent]
  split
  · assumption
  · split <;> rfl

end

section
variable {s t : State}

theorem State.answer_trunk (s : State) (place : Option Nat) (code : ReplyCode) (fields : List Byte) :
    (s.answer place code fields).trunk = s.trunk.answered place code fields := by cases place <;> rfl

theorem State.jointAnswer_trunk (s : State) (place : Option Nat) (changed flagged : Bool) (store : Settings → Settings) :
    (s.jointAnswer place changed flagged store).trunk = s.trunk.jointlyAnswered place changed flagged store := by cases place <;> rfl

theorem State.trunkLaw_afterRow (law : s.trunk.Law) (c : Chunk) : (s.afterRow c).trunk.Law := by
  simp only [State.afterRow]
  split
  · exact law
  · rw [State.answer_trunk]
    exact law.answered ..

/-- The free transmitter is given a reply, whose place it then occupies, or a frame that occupies none. -/
theorem State.trunkLaw_transmitNext (law : s.trunk.Law) (free : s.trunk.transmitter = none) : s.transmitNext.trunk.Law := by
  have places := law.places
  simp only [TrunkPort.placesUsed, free] at places
  simp only [State.transmitNext]
  split
  · next r rest filled =>
    rw [filled, List.length_cons] at places
    exact { law with places := by simp only [TrunkPort.placesUsed, TrunkPort.send, if_true]; omega }
  · split
    · exact { law with places := places }
    · split
      · exact law
      · exact { law with places := places }

/-- A request routed takes one place, reserved or filled at once. -/
theorem State.trunkLaw_route (law : s.trunk.Law) (room : s.trunk.placesUsed < 16) (f : RxFrame) : (s.route f).trunk.Law := by
  have filled (r : Reply) : (s.trunk.answerAtOnce r).Law := by
    refine { law with places := ?_ }
    simp only [TrunkPort.placesUsed, TrunkPort.answerAtOnce, List.length_append, List.length_singleton] at room ⊢
    omega
  simp only [State.route]
  repeat' split
  · exact filled _
  · exact filled _
  · exact filled _
  · refine { law with places := ?_ }
    simp only [TrunkPort.placesUsed, List.length_append, List.length_singleton] at room ⊢
    omega

/-! ### Each command at the trunk port -/

theorem execRequestRoute_trunkLaw (law : s.trunk.Law) : Answers (·.trunk.Law) (execRequestRoute s) := by
  simp only [execRequestRoute]
  split
  · exact .of law
  · next f rest queue =>
    split
    · next room =>
      refine .of (State.trunkLaw_route (s := { s with trunk := { s.trunk with rxQueue := rest } }) { law with received := ?_ } room f)
      have received := law.received
      rw [queue, List.length_cons] at received
      exact Nat.le_of_succ_le received
    · exact .of law

theorem execTrunkFrameReceive_trunkLaw (law : s.trunk.Law) (frame : List Byte) :
    Answers (·.trunk.Law) (execTrunkFrameReceive frame s) := by
  simp only [execTrunkFrameReceive]
  split
  · exact .of law.malformedCounted
  · exact .of (law.receive _)

theorem execTransmitFrame_trunkLaw (law : s.trunk.Law) : Answers (·.trunk.Law) (execTransmitFrame s) :=
  .of (State.trunkLaw_transmitNext (s := { s with trunk := s.trunk.sent }) law.sent s.trunk.sent_transmitter)

theorem execNoticeRaise_trunkLaw (law : s.trunk.Law) (source : RaiseSource) : Answers (·.trunk.Law) (execNoticeRaise source s) := by
  simp only [execNoticeRaise]
  split
  · exact .of law
  · have relieved (rest : List Raise) : (s.setRaises source rest).trunk.Law := by
      cases source
      case trunkPort => exact { law with }
      all_goals exact law
    exact .of ((relieved _).takeRaise _)

theorem execStationReset_trunkLaw (law : s.trunk.Law) : Answers (·.trunk.Law) (execStationReset s) := by
  simp only [execStationReset]
  split
  · exact .of law
  · next asked rest _ =>
    have taken : TrunkPort.Law { s.trunk with restarts := rest } := { law with }
    exact .of (taken.stationReset asked)

theorem execConfig_trunkLaw (law : s.trunk.Law) (owner : ConfigOwner) : Answers (·.trunk.Law) (execConfig owner s) := by
  cases owner
  case trunkPort =>
    simp only [execConfig]
    split
    · exact .of law
    · next taken =>
      obtain ⟨-, -, rfl⟩ := State.takeRequest_eq_some.1 taken
      exact .of (law.awaitOwners ..)
  all_goals
    simp only [execConfig, State.laneSettings, State.payoutSetting, State.thresholdSetting, State.markSettings]
    split
  all_goals simp_all [State.takeRequest_eq_some, State.jointAnswer_trunk, TrunkPort.Law.jointlyAnswered]

theorem execNoticeMask_trunkLaw (law : s.trunk.Law) : Answers (·.trunk.Law) (execNoticeMask s) := by
  simp only [execNoticeMask]
  repeat' split
  all_goals simp_all [State.takeRequest_eq_some, State.answer_trunk, TrunkPort.Law.answered, TrunkPort.Law.setMasks]

theorem execNoticeAck_trunkLaw (law : s.trunk.Law) : Answers (·.trunk.Law) (execNoticeAck s) := by
  simp only [execNoticeAck]
  repeat' split
  all_goals simp_all [State.takeRequest_eq_some, State.answer_trunk, TrunkPort.Law.answered, TrunkPort.Law.setCondition]

/-- Every command keeps the law: the other blocks reach the trunk port only by their replies. -/
theorem exec_trunkLaw (c : Instr) (law : s.trunk.Law) : Answers (·.trunk.Law) (exec c s) := by
  by_cases still : Part.trunk ∉ Part.writtenBy c
  · obtain ⟨t, answers, keeps⟩ := exec_keeps c s
    have same : t.trunk = s.trunk := keeps .trunk still
    exact ⟨t, answers, show t.trunk.Law from same ▸ law⟩
  cases c
  case powerOnReset => exact .of TrunkPort.powerOn_law
  case stationReset => exact execStationReset_trunkLaw law
  case requestRoute => exact execRequestRoute_trunkLaw law
  case trunkFrameReceive frame => exact execTrunkFrameReceive_trunkLaw law frame
  case transmitFrame => exact execTransmitFrame_trunkLaw law
  case noticeRaise source => exact execNoticeRaise_trunkLaw law source
  case noticeMask => exact execNoticeMask_trunkLaw law
  case noticeAck => exact execNoticeAck_trunkLaw law
  case config owner => exact execConfig_trunkLaw law owner
  case memoryClearDone =>
    simp only [exec, execMemoryClearDone]
    split
    · exact .of law
    · exact .of { law with }
  case cabinetResetLine =>
    simp only [exec, execCabinetResetLine]
    split
    · exact .of { law with }
    · exact .of law
  case restart =>
    simp only [exec, execRestart]
    split
    · exact .of law
    · next taken =>
      obtain ⟨-, -, rfl⟩ := State.takeRequest_eq_some.1 taken
      exact .of { law with }
  case passPut | passSetStatus | passDelete | passRead | usageMerge | productPut | productClear | refundQuote | refundRetire =>
    simp only [exec, execPassPut, execPassSetStatus, execPassDelete, execPassRead, execUsageMerge, execProductPut, execProductClear,
      execRefundQuote, execRefundRetire]
    repeat' split
    all_goals simp_all [State.takePortRequest_eq_some, State.takeBadRefund_eq_some, State.answer_trunk, TrunkPort.Law.answered]
  case streamOpen | streamData | streamSuspend | streamResume | streamClose | streamAbort | streamChunkRow =>
    simp only [exec, execStreamOpen, execStreamData, execStreamSuspend, execStreamResume, execStreamClose, execStreamAbort,
      execStreamChunkRow]
    repeat' split
    all_goals simp_all [State.takeStreamRequest_eq_some, State.grant_eq_some, State.answer_trunk, TrunkPort.Law.answered, State.trunkLaw_afterRow]
  case productRead | protectSet | dayOpen | dayClose | time | calendarPut | calendarRead | laneRelease | laneLock | laneFaultClear
      | laneConfig | laneRead | liftConfig | liftRead | journalAck | journalReplay | journalRead | status =>
    simp only [exec, execProductRead, execProtectSet, execDayOpen, execDayClose, execTime, execCalendarPut, execCalendarRead,
      execLaneRelease, execLaneLock, State.takeMode, execLaneFaultClear, execLaneConfig, execLaneRead, execLiftConfig,
      execLiftRead, execJournalAck, execJournalReplay, execJournalRead, execStatus]
    repeat' split
    all_goals simp_all [State.takeRequest_eq_some, State.answer_trunk, State.jointAnswer_trunk, TrunkPort.Law.answered,
      TrunkPort.Law.jointlyAnswered]
  case passageRecordTake owner => cases owner <;> exact absurd (by simp [Part.writtenBy]) still
  all_goals exact absurd (by simp [Part.writtenBy]) still

theorem step_trunkLaw (law : s.trunk.Law) (h : step s = .next t) : t.trunk.Law := by
  rcases step_cases h with rfl | ⟨c, rest, h⟩
  · rwa [State.tick_trunk]
  · have kept := exec_trunkLaw (s := { s with pending := rest }) c law
    rwa [h, answers_next] at kept

end
end Sys2Proof.Machine

open Sys2Proof Sys2Proof.Machine

/-- Settles O17: each operation of the trunk port keeps its law, and every command comes to it by one of them. -/
theorem trunkLawKept : Obligations.TrunkLawKept := fun _ _ => step_trunkLaw
end

section
set_option Elab.async false
/-! What an owner's reply puts into the place reserved for its request, and what asks for a station reset (R188, R192, R193, R197, 10.6). -/
namespace Sys2Proof.Machine

/-! ### The body of a reply (R197) -/

section
variable {kind : RequestKind} {fields : List Byte}

theorem padTo_length {len : Nat} (short : fields.length ≤ len) : (padTo len fields).length = len := by
  rw [padTo, List.length_append, List.length_replicate]
  omega

theorem padTo_carried {len k : Nat} (carried : k < fields.length) : (padTo len fields)[k]? = fields[k]? :=
  List.getElem?_append_left carried

theorem padTo_beyond {len k : Nat} (beyond : fields.length ≤ k) (inside : k < len) : (padTo len fields)[k]? = some 0 := by
  rw [padTo, List.getElem?_append_right beyond, List.getElem?_replicate_of_lt (by omega)]

end

theorem settingsBytes_layout (v : Settings) : (settingsBytes v).length = 10 ∧ SettingsLayout v (settingsBytes v) := by
  refine ⟨by simp [settingsBytes], ?_⟩
  constructor <;> simp (disch := simp) [settingsBytes, numberAt, field_append_left, field_append_right, field_be]

theorem jointCode_flagged (kind : RequestKind) (changed : Bool) : jointCode kind changed true =
    if kind = .config then .okClamped else .stillPresent := by cases kind <;> rfl

theorem jointFields_config (stored : Settings) : jointFields .config stored = settingsBytes stored := rfl

theorem jointFields_other {kind : RequestKind} (other : kind ≠ .config) (stored : Settings) : jointFields kind stored = [] := by
  cases kind
  case config => exact absurd rfl other
  all_goals rfl

/-! ### A place among the others (R188) -/

section
variable {s : State} {t : TrunkPort} {n : Nat} {p : ReservedPlace} {f : ReservedPlace → ReservedPlace}

/-- Writing the places leaves each under its number. -/
theorem TrunkPort.place_map (numbers : ∀ x, (f x).number = x.number) (k : Nat) :
    ({ t with reserved := t.reserved.map f } : TrunkPort).place k = (t.place k).map f := by
  have same : ((fun x : ReservedPlace => x.number == k) ∘ f) = fun x => x.number == k := funext fun x => by simp [numbers]
  simp only [TrunkPort.place, List.find?_map, same]

theorem State.answer_held (held : s.trunk.place n = some p) (code : ReplyCode) (fields : List Byte) : s.answer (some n) code fields =
    { s with trunk := { s.trunk with
        reserved := s.trunk.reserved.filter (fun q => q.number != n), filled := s.trunk.filled ++ [p.reply code fields] } } := by
  simp only [State.answer, TrunkPort.fill_held held]

section
variable {changed flagged : Bool} {store : Settings → Settings}

theorem State.jointAnswer_last (held : s.trunk.place n = some p) (last : p.awaiting = 1) :
    s.jointAnswer (some n) changed flagged store = s.answer (some n)
      (jointCode p.kind (p.changed || changed) (p.flagged || flagged)) (jointFields p.kind (store p.stored)) := by
  simp only [State.jointAnswer, State.answer, TrunkPort.jointAnswer_last held last.le]

theorem State.jointAnswer_more (held : s.trunk.place n = some p) (more : 2 ≤ p.awaiting) :
    s.jointAnswer (some n) changed flagged store = { s with trunk := { s.trunk with
      reserved := s.trunk.reserved.map fun x => if x.number = n then p.after changed flagged store else x } } := by
  simp only [State.jointAnswer, TrunkPort.jointAnswer_more held more]

/-- The place that one more owner has answered stands among the others, and they as before. -/
theorem TrunkPort.place_after (held : t.place n = some p) (k : Nat) :
    ({ t with reserved := t.reserved.map fun x => if x.number = n then p.after changed flagged store else x } : TrunkPort).place k =
      if k = n then some (p.after changed flagged store) else t.place k := by
  have number := TrunkPort.place_number held
  rw [TrunkPort.place_map fun x => by split <;> simp_all [ReservedPlace.after]]
  by_cases here : k = n
  · rw [here, held, if_pos rfl, Option.map_some, if_pos number]
  · rw [if_neg here]
    cases other : t.place k with
    | none => rfl
    | some x => rw [Option.map_some, if_neg (TrunkPort.place_number other ▸ here)]

end

/-! ### What asks for a station reset (R192) -/

theorem exec_restart {r : Routed} (routes : s.Routes .trunkPort .restart r) : exec .restart s = .next
    { s.dropNextFor .trunkPort with trunk := { s.trunk with
      restarts := s.trunk.restarts ++ [(r.place.bind s.trunk.place).map (·.tag)] } } := by
  simp only [exec, execRestart, routes.take]
  rfl

theorem exec_resetLineChange {asserted : Bool} (changes : asserted ≠ s.resetLine.asserted) : exec (.resetLineChange asserted) s = .next
    { s with resetLine :=
      { asserted := asserted, remaining := 10,
        armed := s.resetLine.armed || (!s.resetLine.asserted && decide (s.resetLine.remaining = 0)) } } := by
  simp only [exec, execResetLineChange, if_neg changes]

end
end Sys2Proof.Machine

open Sys2Proof Sys2Proof.Machine

/-- Settles O20: a reply by the place it fills, and the part of an owner by whether it is the last one awaited. -/
theorem replyFillsPlace : Obligations.ReplyFillsPlace := by
  refine ⟨fun s n p code fields held short => ⟨replyBody p.kind code fields, State.answer_held held code fields, ?_, rfl, ?_, ?_⟩,
    fun s n p changed flagged store held => ⟨fun last => ⟨_, _, State.jointAnswer_last held last, ?_, ?_, ?_, ?_, ?_⟩, fun more =>
      ⟨p.after changed flagged store, _, State.jointAnswer_more held more, rfl, ?_, ?_, ?_, ?_⟩⟩, rfl, rfl, rfl⟩
  · rw [replyBody, List.length_cons, padTo_length short, Nat.add_comm]
  · exact fun k carried => padTo_carried carried
  · exact fun k beyond inside => padTo_beyond beyond inside
  · intro config
    rw [config, jointFields_config]
    exact settingsBytes_layout _
  · exact fun other => jointFields_other other _
  · intro flags
    rw [show (p.flagged || flagged) = true by simpa using flags]
    exact jointCode_flagged _ _
  · intro quiet calm changes
    rw [quiet, calm, show (p.changed || changed) = true by simpa using changes]
    rfl
  · intro quiet calm unchanged still
    rw [quiet, calm, unchanged, still]
    rfl
  · simp [ReservedPlace.after]
  · simp [ReservedPlace.after]
  · rw [TrunkPort.place_after held, if_pos rfl]
  · intro k other
    rw [TrunkPort.place_after held, if_neg other]

/-- Settles O24: the request and the line each by its own event, the line's measure begun again by each change. -/
theorem restartsAreAsked : Obligations.RestartsAreAsked := by
  refine ⟨fun s r n p routes place held => ?_, fun s asserted armed run => ?_, fun s asserted => ?_, fun s released => ?_⟩
  · rw [exec_restart routes, place, Option.bind_some, held, Option.map_some]
  · simp only [exec, execCabinetResetLine, asserted, armed, run, decide_true, Bool.and_self, if_true]
  · rw [exec_resetLineChange (by simp [asserted])]
    simp [asserted]
  · rw [exec_resetLineChange (by simp [released])]
    simp [released]
end

section
set_option Elab.async false
/-! How a trunk frame is parsed and received, and how a request is routed to its owners (R187, R188, R190; section 10.7). -/
namespace Sys2Proof.Machine

/-! ### The header (R187) -/

theorem be_two (n : Nat) : be n 2 = [BitVec.ofNat 8 (n / 256), BitVec.ofNat 8 n] := by simp [be]

theorem appended_tag (tag : Tag) : BitVec.ofNat 8 (tag.toNat / 256) ++ BitVec.ofNat 8 tag.toNat = tag := by
  apply BitVec.eq_of_toNat_eq
  have small : tag.toNat < 65536 := tag.isLt
  rw [toNat_append_byte, BitVec.toNat_ofNat, BitVec.toNat_ofNat]
  omega

theorem numberOf_header {length : Nat} (small : length < 65536) :
    numberOf [BitVec.ofNat 8 (length / 256), BitVec.ofNat 8 length] = length := by
  rw [← be_two, numberOf_be]
  exact Nat.mod_eq_of_lt small

/-- The bytes that a body must hold: those of the fixed fields of its kind, and none where the kind is unknown. -/
def neededBytes (kind : Byte) (body : List Byte) : Nat := (RequestKind.ofByte kind).elim 0 (·.bodyLength body)

theorem parseTrunkFrame_headed (kind : Byte) (tag : Tag) {length : Nat} (small : length < 65536) (rest : List Byte) :
    parseTrunkFrame ([1, kind] ++ be tag.toNat 2 ++ be length 2 ++ rest) =
      if length ≤ rest.length ∧ neededBytes kind (rest.take length) ≤ (rest.take length).length then
        some { kind := kind, tag := tag, body := rest.take length }
      else none := by
  cases named : RequestKind.ofByte kind <;>
    simp only [be_two, List.cons_append, List.nil_append, parseTrunkFrame, numberOf_header small, appended_tag, neededBytes, named,
      Option.elim, true_and]

theorem parseTrunkFrame_whole (kind : Byte) (tag : Tag) {body : List Byte} (small : body.length < 65536) (padding : List Byte) :
    parseTrunkFrame (trunkFrame kind tag body ++ padding) =
      if neededBytes kind body ≤ body.length then some { kind := kind, tag := tag, body := body } else none := by
  rw [trunkFrame, List.append_assoc _ body padding, parseTrunkFrame_headed kind tag small, List.take_left]
  simp

/-- A frame shorter than its header, or of another version, is malformed. -/
theorem parseTrunkFrame_unheaded {frame : List Byte} (bad : frame.length < 6 ∨ frame.head? ≠ some 1) : parseTrunkFrame frame = none := by
  unfold parseTrunkFrame
  split
  · refine if_neg fun ⟨version, _⟩ => ?_
    rcases bad with short | other
    · simp only [List.length_cons] at short
      omega
    · exact other (by rw [version]; rfl)
  · rfl

theorem exec_trunkFrameReceive_malformed {s : State} {frame : List Byte} (malformed : parseTrunkFrame frame = none) :
    exec (.trunkFrameReceive frame) s = .next { s with trunk := { s.trunk with malformed := bump 65535 s.trunk.malformed } } := by
  simp only [exec, execTrunkFrameReceive, malformed]

theorem exec_trunkFrameReceive_whole {s : State} {frame : List Byte} {f : RxFrame} (whole : parseTrunkFrame frame = some f) :
    exec (.trunkFrameReceive frame) s = .next { s with trunk := s.trunk.receive f } := by
  simp only [exec, execTrunkFrameReceive, whole]

/-! ### The kind byte (section 10.7) -/

theorem RequestKind.ofByte_toByte (k : RequestKind) : RequestKind.ofByte k.toByte = some k := by cases k <;> rfl

theorem RequestKind.toByte_of_ofByte {b : Byte} {k : RequestKind} (named : RequestKind.ofByte b = some k) : k.toByte = b := by
  unfold RequestKind.ofByte at named
  refine BitVec.eq_of_toNat_eq (Eq.symm ?_)
  split at named
  all_goals cases named
  all_goals assumption

theorem RequestKind.ofByte_eq_some {b : Byte} {k : RequestKind} : RequestKind.ofByte b = some k ↔ k.toByte = b :=
  ⟨RequestKind.toByte_of_ofByte, fun byte => byte ▸ k.ofByte_toByte⟩

/-! ### The owners of a request (R52, R60, R63, R65, R69, R86, R188) -/

section
variable {k : RequestKind} {body : List Byte}

/-- What a request to one lane or to all makes of its lane number. -/
theorem RequestKind.owners_lanes (kind : k ∈ [RequestKind.laneRelease, .laneLock, .laneFaultClear]) : k.owners body =
    if field body 0 1 = 255 then .ok (laneNumbers.map .lane)
    else if h : field body 0 1 < 12 then .ok [.lane ⟨field body 0 1, h⟩] else .error .range := by
  simp only [List.mem_cons, List.not_mem_nil, or_false] at kind
  rcases kind with rfl | rfl | rfl <;> rfl

theorem RequestKind.owners_lane (kind : k ∈ [RequestKind.laneConfig, .laneRead]) : k.owners body =
    if h : field body 0 1 < 12 then .ok [.lane ⟨field body 0 1, h⟩] else .error .range := by
  simp only [List.mem_cons, List.not_mem_nil, or_false] at kind
  rcases kind with rfl | rfl <;> rfl

theorem RequestKind.owners_lift (kind : k ∈ [RequestKind.liftConfig, .liftRead]) : k.owners body =
    if h : field body 0 1 < 4 then .ok [.lift ⟨field body 0 1, h⟩] else .error .range := by
  simp only [List.mem_cons, List.not_mem_nil, or_false] at kind
  rcases kind with rfl | rfl <;> rfl

/-- RANGE is the one refusal of a request that is not handed to an owner (log entry 13). -/
theorem RequestKind.owners_refused {code : ReplyCode} (refused : k.owners body = .error code) : code = .range := by
  unfold RequestKind.owners at refused
  repeat' split at refused
  all_goals cases refused
  all_goals rfl

end

/-! ### Routing (R188, R190) -/

section
variable {s : State} {f : RxFrame} {rest : List RxFrame} {k : RequestKind}

/-- While a place is free, the lowest number that no reserved place has is one that none has. -/
theorem TrunkPort.freshPlace_fresh {t : TrunkPort} (room : t.reserved.length < 16) : ∀ q ∈ t.reserved, q.number ≠ t.freshPlace := by
  have someFree : ∃ n ∈ List.range 16, n ∉ t.reserved.map (·.number) := by
    by_contra taken
    push Not at taken
    have few := (List.nodup_range (n := 16)).length_le_of_subset taken
    simp only [List.length_range, List.length_map] at few
    omega
  obtain ⟨n, number, free⟩ := someFree
  unfold TrunkPort.freshPlace
  cases found : (List.range 16).find? fun n => !t.reserved.any fun p => p.number == n with
  | none =>
    simp only [List.mem_map] at free
    have := List.find?_eq_none.1 found n number
    simp_all
  | some m =>
    have := List.find?_some found
    simp_all

/-- The head of the receive queue leaves it to be routed. -/
theorem exec_requestRoute (queue : s.trunk.rxQueue = f :: rest) (room : s.trunk.placesUsed < 16) :
    exec .requestRoute s = .next ({ s with trunk := { s.trunk with rxQueue := rest } }.route f) := by
  simp only [exec, execRequestRoute, queue, if_pos room]

theorem State.route_unknown (unknown : RequestKind.ofByte f.kind = none) : s.route f =
    { s with trunk := s.trunk.answerAtOnce { kind := 0xFF, tag := f.tag, body := [ReplyCode.unknownKind.code] } } := by
  simp only [State.route, unknown]

/-- The reply of a request that is answered when it is routed. -/
theorem newPlace_reply (named : RequestKind.ofByte f.kind = some k) (n awaiting : Nat) (code : ReplyCode) :
    (newPlace n k f.tag awaiting).reply code [] = { kind := f.kind + 0x80, tag := f.tag, body := replyBody k code [] } := by
  rw [← RequestKind.toByte_of_ofByte named]
  rfl

theorem State.route_starting (named : RequestKind.ofByte f.kind = some k) (starting : s.trunk.partStatus = .starting) (other : k ≠ .status) :
    s.route f = { s with trunk := s.trunk.answerAtOnce { kind := f.kind + 0x80, tag := f.tag, body := replyBody k .starting [] } } := by
  simp only [State.route, named, if_pos (And.intro starting other), newPlace_reply named]

theorem State.route_refused {code : ReplyCode} (named : RequestKind.ofByte f.kind = some k)
    (taken : ¬ (s.trunk.partStatus = .starting ∧ k ≠ .status)) (refused : k.owners f.body = .error code) :
    s.route f = { s with trunk := s.trunk.answerAtOnce { kind := f.kind + 0x80, tag := f.tag, body := replyBody k code [] } } := by
  simp only [State.route, named, if_neg taken, refused, newPlace_reply named]

theorem State.route_handed {owners : List Owner} (named : RequestKind.ofByte f.kind = some k)
    (taken : ¬ (s.trunk.partStatus = .starting ∧ k ≠ .status)) (handed : k.owners f.body = .ok owners) : s.route f =
    { s with
      trunk := { s.trunk with reserved := s.trunk.reserved ++ [newPlace s.trunk.freshPlace k f.tag owners.length] }
      routed := s.routed ++ owners.map fun o => { owner := o, kind := k, body := f.body, place := some s.trunk.freshPlace } } := by
  simp only [State.route, named, if_neg taken, handed]

end
end Sys2Proof.Machine

open Sys2Proof Sys2Proof.Machine

/-- Settles O25: a frame by its header and by whether its body holds what its kind needs; the kinds and their lengths by section 10.7. -/
theorem framesReceived : Obligations.FramesReceived := by
  refine ⟨fun s kind tag body padding small long => ?_, fun s frame bad => exec_trunkFrameReceive_malformed (parseTrunkFrame_unheaded bad),
    fun s kind tag length rest small short => exec_trunkFrameReceive_malformed ?_,
    fun s kind tag body padding k small named short => exec_trunkFrameReceive_malformed ?_, fun b k => RequestKind.ofByte_eq_some,
    rfl, rfl, rfl, rfl, rfl, rfl, rfl, rfl, fun body => ⟨rfl, rfl, rfl, rfl, rfl, rfl, rfl, fun legal => ?_, fun illegal => ?_, rfl⟩⟩
  · have holds : neededBytes kind body ≤ body.length := by
      cases named : RequestKind.ofByte kind with
      | none => simp [neededBytes, named]
      | some k => simpa [neededBytes, named] using long k named
    rw [exec_trunkFrameReceive_whole ((parseTrunkFrame_whole kind tag small padding).trans (if_pos holds))]
    rfl
  · rw [parseTrunkFrame_headed kind tag small, if_neg fun ⟨holds, _⟩ => Nat.not_lt.2 holds short]
  · rw [parseTrunkFrame_whole kind tag small, if_neg (by simpa [neededBytes, named] using short)]
  · simp only [RequestKind.bodyLength, if_pos legal]
  · simp only [RequestKind.bodyLength, if_neg (Nat.not_le.2 illegal)]

/-- Settles O26: the head of the queue by its kind, the part status and the owners of its body, and these by the kind. -/
theorem requestsRouted : Obligations.RequestsRouted := by
  refine ⟨fun s f rest queue room => ?_, fun body => ⟨?_, ?_, ?_, fun k kind => ?_, fun k kind => ?_, fun k kind => ?_, ?_, rfl, ?_, ?_⟩⟩
  · rw [exec_requestRoute queue room]
    refine ⟨fun unknown => ?_, fun k named => ⟨fun starting other => ?_, fun taken => ⟨fun code refused => ?_, fun owners handed => ?_⟩⟩⟩
    · rw [State.route_unknown unknown]
      rfl
    · rw [State.route_starting named (by exact starting) other]
      rfl
    · obtain rfl := RequestKind.owners_refused refused
      refine ⟨rfl, ?_⟩
      rw [State.route_refused named (by rcases taken with ready | status <;> simp_all) refused]
      rfl
    · refine ⟨s.trunk.freshPlace, newPlace s.trunk.freshPlace k f.tag owners.length, TrunkPort.freshPlace_fresh ?_, rfl, rfl, rfl, rfl, rfl, rfl, ?_⟩
      · simp only [TrunkPort.placesUsed] at room
        omega
      · rw [State.route_handed named (by rcases taken with ready | status <;> simp_all) handed]
        rfl
  · simp [RequestKind.owners]
  · simp [RequestKind.owners]
  · simp [RequestKind.owners]
  · rw [RequestKind.owners_lanes kind]
    refine ⟨fun all => if_pos all, fun l one => ?_, fun high notAll => ?_⟩
    · have small := l.isLt
      rw [if_neg (by omega), dif_pos (by omega)]
      simp only [one]
    · rw [if_neg notAll, dif_neg (by omega)]
  · rw [RequestKind.owners_lane kind]
    refine ⟨fun l one => ?_, fun high => dif_neg (by omega)⟩
    rw [dif_pos (one ▸ l.isLt)]
    simp only [one]
  · rw [RequestKind.owners_lift kind]
    refine ⟨fun i one => ?_, fun high => dif_neg (by omega)⟩
    rw [dif_pos (one ▸ i.isLt)]
    simp only [one]
  · simp [RequestKind.owners]
  · simp [RequestKind.owners]
  · simp [RequestKind.owners]
end

section
set_option Elab.async false
/-! What the transmitter is given, and the bytes of a RECORD and of a NOTICE (R133, R134, R136, R189; section 10.7). -/
namespace Sys2Proof.Machine

/-! ### The body of a RECORD (section 10.7) -/

/-- The flags byte of a RECORD, bit 0 first. -/
def recordFlags (replay newDay day lane lift : Bool) : Nat :=
  replay.toNat + 2 * newDay.toNat + 4 * day.toNat + 8 * lane.toNat + 16 * lift.toNat

theorem recordFlags_bits (replay newDay day lane lift : Bool) :
    recordFlags replay newDay day lane lift < 32
      ∧ (recordFlags replay newDay day lane lift).testBit 0 = replay ∧ (recordFlags replay newDay day lane lift).testBit 1 = newDay
      ∧ (recordFlags replay newDay day lane lift).testBit 2 = day ∧ (recordFlags replay newDay day lane lift).testBit 3 = lane
      ∧ (recordFlags replay newDay day lane lift).testBit 4 = lift := by
  revert replay newDay day lane lift
  decide

theorem recordBody_eq (r : JournalRecord) (replay : Bool) : recordBody r replay =
    be r.sequence 4 ++ [r.body.kind.code]
      ++ be (recordFlags replay (decide (r.body.newDay = some true)) r.body.day.isSome r.body.lane.isSome r.body.lift.isSome) 1
      ++ be r.body.second 4 ++ be (r.body.day.getD 0) 1
      ++ be ((r.body.lane.map (·.val)).getD 0) 1 ++ be ((r.body.lift.map (·.val)).getD 0) 1 ++ be (r.resortLift.getD 0) 1
      ++ uidBytes (r.body.uid.getD 0) ++ be (r.body.headIndex.getD 0) 1 ++ be (r.body.headcount.getD 0) 1
      ++ be (r.body.amountPerHead.getD 0) 4 ++ be (r.body.unusedDays.getD 0) 1 := by
  simp only [recordBody, recordFlags, Bool.toNat, cond_eq_ite, decide_eq_true_eq, mul_ite, mul_one, mul_zero]

/-- A lane's number or a lift's index fits a byte, whether or not it is given. -/
theorem optionalIndex_small {n : Nat} (x : Option (Fin n)) (small : n ≤ 256) : (x.map (·.val)).getD 0 % 256 = (x.map (·.val)).getD 0 := by
  cases x with
  | none => rfl
  | some i => exact Nat.mod_eq_of_lt (Nat.lt_of_lt_of_le i.isLt small)

theorem recordBody_layout (r : JournalRecord) (replay : Bool) : RecordLayout r replay (recordBody r replay) := by
  have lane := optionalIndex_small r.body.lane (by decide)
  have lift := optionalIndex_small r.body.lift (by decide)
  obtain ⟨small, bits⟩ := recordFlags_bits replay (decide (r.body.newDay = some true)) r.body.day.isSome r.body.lane.isSome r.body.lift.isSome
  rw [recordBody_eq]
  generalize recordFlags .. = flags at small bits ⊢
  have whole : flags % 256 = flags := Nat.mod_eq_of_lt (by omega)
  constructor <;>
    simp (disch := simp) [numberAt, field_append_left, field_append_right, field_be, field_byte, field_cons_succ, uidBytes_field, lane, lift,
      whole, small, bits]

/-! ### The body of a NOTICE (section 10.7) -/

theorem conditionByte (c : Condition) : c.index.val % 256 = c.index.val := Nat.mod_eq_of_lt (Nat.lt_trans c.index.isLt (by decide))

/-- The lift of an overflow, or FF for the station. -/
theorem overflowLift (lift : Option LiftNo) : (lift.map (·.val)).getD 255 % 256 = (lift.map (·.val)).getD 255 := by
  cases lift with
  | none => rfl
  | some i => exact Nat.mod_eq_of_lt (Nat.lt_trans i.isLt (by decide))

/-- The bytes 0 that fill a body. -/
def zeros (count : Nat) : List Byte := List.replicate count 0

@[simp] theorem zeros_length (count : Nat) : (zeros count).length = count := List.length_replicate

theorem field_zeros (count offset len : Nat) : field (zeros count) offset len = 0 := field_replicate count offset len

theorem padTo_eq (len : Nat) (bytes : List Byte) : padTo len bytes = bytes ++ zeros (len - bytes.length) := rfl

theorem noticeBody_layout (n : Raise) : NoticeLayout n (noticeBody n) := by
  obtain ⟨c, detail⟩ := n
  cases detail
  case lane l =>
    have lane : l.val % 256 = l.val := Nat.mod_eq_of_lt (Nat.lt_trans l.isLt (by decide))
    constructor <;>
      simp (disch := simp) [noticeBody, padTo_eq, detailAt, field_append_left, field_append_right, field_be, field_zeros, conditionByte, lane]
  case streamDone g applied refused first deleted busy refunded | streamTimeout g expected applied refused =>
    have generation : g.val % 256 = g.val := Nat.mod_eq_of_lt g.isLt
    constructor <;>
      simp (disch := simp) [noticeBody, padTo_eq, detailAt, numberAt, field_append_left, field_append_right, field_be, field_zeros,
        conditionByte, generation, firstRefusedAt_append_left, firstRefusedAt_append_right, firstRefusedAt_bytes]
  all_goals
    constructor <;>
      simp (disch := simp) [noticeBody, padTo_eq, detailAt, numberAt, field_append_left, field_append_right, field_be, field_zeros,
        conditionByte, overflowLift, uidBytes_field]

/-! ### The records held in the ring (R128, R129) -/

section
variable {x y r : JournalRecord} {ring before after : List JournalRecord} {next : Nat} {j : Journal}

theorem stepForward_pred {q : Nat} (legal : 1 ≤ q ∧ q ≤ sequenceCount) : stepForward q - 1 = q % sequenceCount := by
  unfold stepForward sequenceCount at *
  split <;> omega

/-- A record stands as many steps forward of the first as it stands behind it. -/
theorem consecutive_steps (h : consecutive (x :: ring) next) {i : Nat} (stands : ring[i]? = some y) :
    y.sequence - 1 = (x.sequence - 1 + (i + 1)) % sequenceCount := by
  induction ring generalizing x i with
  | nil => cases stands
  | cons z rest ih =>
    obtain ⟨low, high, steps, following⟩ := h
    have step := stepForward_pred ⟨low, high⟩
    rw [steps] at step
    unfold sequenceCount at *
    cases i with
    | zero =>
      cases stands
      rw [step]
      congr 1
      omega
    | succ i =>
      rw [ih following stands, step]
      omega

theorem consecutive_legal (h : consecutive (x :: ring) next) : 1 ≤ x.sequence ∧ x.sequence ≤ sequenceCount := by
  cases ring with
  | nil => exact ⟨h.1, h.2.1⟩
  | cons y rest => exact ⟨h.1, h.2.1⟩

/-- No sequence comes again in a ring that the circle of sequences has room for. -/
theorem consecutive_distinct (h : consecutive ring next) (room : ring.length ≤ sequenceCount) :
    ring.Pairwise fun x y => x.sequence ≠ y.sequence := by
  induction ring with
  | nil => exact .nil
  | cons x rest ih =>
    rw [List.length_cons] at room
    refine .cons (fun y held same => ?_) (ih (consecutive_tail h) (by omega))
    obtain ⟨i, inside, rfl⟩ := List.mem_iff_getElem.1 held
    have steps := consecutive_steps h (List.getElem?_eq_getElem inside)
    obtain ⟨low, high⟩ := consecutive_legal h
    rw [← same] at steps
    unfold sequenceCount at *
    omega

theorem Journal.Law.distinct (law : j.Law) : j.ring.Pairwise fun x y => x.sequence ≠ y.sequence := by
  refine consecutive_distinct law.sequences (Nat.le_trans law.held ?_)
  decide

/-- The record at a place of the ring is the one its sequence names (R128). -/
theorem Journal.Law.recordAt_eq (law : j.Law) (ring : j.ring = before ++ r :: after) : j.recordAt r.sequence = some r := by
  have distinct := law.distinct
  rw [ring, List.pairwise_append] at distinct
  obtain ⟨-, -, apart⟩ := distinct
  have older : before.find? (fun y => y.sequence == r.sequence) = none :=
    List.find?_eq_none.2 fun y held => by simpa using apart y held r (List.mem_cons_self ..)
  rw [Journal.recordAt, ring, List.find?_append, older, Option.none_or, List.find?_cons_of_pos (by simp)]

/-- A step from a record leads to the next one held, and from the newest to none (R134, R136). -/
theorem Journal.Law.stepFrom_eq (law : j.Law) (ring : j.ring = before ++ r :: after) :
    j.stepFrom r.sequence = after.head?.map (·.sequence) := by
  have distinct := law.distinct
  cases after with
  | nil => simp [Journal.stepFrom, Journal.newest, ring]
  | cons n rest =>
    rw [ring, List.pairwise_append, List.pairwise_cons] at distinct
    obtain ⟨-, ⟨later, -⟩, -⟩ := distinct
    have other : j.newest ≠ some r.sequence := by
      rw [Journal.newest, ring, List.getLast?_append_of_ne_nil _ (by simp), List.getLast?_cons_cons, List.getLast?_eq_some_getLast (by simp)]
      exact fun same => later _ (List.getLast_mem _) (Option.some.inj same).symm
    rw [Journal.stepFrom, if_neg other, stepForward_of_consecutive (ring ▸ law.sequences)]
    rfl

end

/-! ### What the transmitter is given (R133, R134, R136, R189) -/

section
variable {s : State}

theorem exec_transmitFrame (s : State) : exec .transmitFrame s = .next (State.transmitNext { s with trunk := s.trunk.sent }) := rfl

theorem State.transmitNext_reply {r : Reply} {rest : List Reply} (filled : s.trunk.filled = r :: rest) : s.transmitNext =
    { s with trunk := TrunkPort.send { s.trunk with filled := rest } (trunkFrame r.kind r.tag r.body) .replyPlace } := by
  simp only [State.transmitNext, filled]

theorem State.transmitNext_notice {n : Raise} {rest : List Raise} (filled : s.trunk.filled = []) (notices : s.trunk.pendingNotices = n :: rest) :
    s.transmitNext =
      { s with
        trunk := s.trunk.send (trunkFrame 0xF0 (Config.unsolicitedTag s.freeIndex) (noticeBody n)) (.notice n.condition)
        freeIndex := s.freeIndex + 1 } := by
  simp only [State.transmitNext, filled, notices]

theorem State.transmitNext_record {r : JournalRecord} {replay : Bool} {j : Journal} (filled : s.trunk.filled = [])
    (notices : s.trunk.pendingNotices = []) (offered : s.journal.offer = some (r, replay, j)) : s.transmitNext =
      { s with
        trunk := s.trunk.send (trunkFrame 0xF1 (Config.unsolicitedTag s.freeIndex) (recordBody r replay)) .nothing
        journal := j
        freeIndex := s.freeIndex + 1 } := by
  simp only [State.transmitNext, filled, notices, offered]

theorem State.transmitNext_idle (filled : s.trunk.filled = []) (notices : s.trunk.pendingNotices = []) (idle : s.journal.offer = none) :
    s.transmitNext = s := by
  simp only [State.transmitNext, filled, notices, idle]

theorem Journal.offer_send {j : Journal} {q : Nat} {r : JournalRecord} (position : j.sendPosition = some q) (held : j.recordAt q = some r) :
    j.offer = some (r, false, { j with sendPosition := j.stepFrom q }) := by
  simp only [Journal.offer, position, held, Option.map_some]

theorem Journal.offer_replay {j : Journal} {q : Nat} {r : JournalRecord} (sent : j.sendPosition = none) (cursor : j.replayCursor = some q)
    (held : j.recordAt q = some r) : j.offer = some (r, true, { j with replayCursor := j.stepFrom q }) := by
  simp only [Journal.offer, sent, cursor, held, Option.map_some]

theorem Journal.offer_none {j : Journal} (sent : j.sendPosition = none) (replayed : j.replayCursor = none) : j.offer = none := by
  simp only [Journal.offer, sent, replayed]

theorem trunkFrame_notice (tag : Tag) (n : Raise) : trunkFrame 0xF0 tag (noticeBody n) =
    [1, 0xF0] ++ be tag.toNat 2 ++ [0, 36] ++ noticeBody n := by
  rw [trunkFrame, (noticeBody_layout n).length]
  rfl

theorem trunkFrame_record (tag : Tag) (r : JournalRecord) (replay : Bool) : trunkFrame 0xF1 tag (recordBody r replay) =
    [1, 0xF1] ++ be tag.toNat 2 ++ [0, 29] ++ recordBody r replay := by
  rw [trunkFrame, (recordBody_layout r replay).length]
  rfl

end
end Sys2Proof.Machine

open Sys2Proof Sys2Proof.Machine

/-- Settles O27: the transmitter, freed, by what the three sources offer, the ring by its distinct sequences, and the bytes by their layouts. -/
theorem transmitterChooses : Obligations.TransmitterChooses := by
  refine ⟨fun s u freed => ?_, fun j before after r law ring => ⟨law.recordAt_eq ring, law.stepFrom_eq ring⟩, noticeBody_layout,
    recordBody_layout, rfl, rfl⟩
  obtain rfl : u = s.trunk.sent := by
    rw [freed, TrunkPort.sent]
    cases s.trunk.transmitter with
    | none => rfl
    | some x =>
      obtain ⟨frame, occupies⟩ := x
      cases occupies <;> rfl
  rw [exec_transmitFrame]
  refine ⟨fun r rest filled => ?_, fun n rest filled notices => ?_, fun r filled notices => ⟨fun q position held => ?_,
    fun q sent cursor held => ?_⟩, fun filled notices sent replayed => ?_⟩
  · rw [State.transmitNext_reply filled]
    rfl
  · refine ⟨Config.unsolicitedTag s.freeIndex, ?_⟩
    rw [State.transmitNext_notice filled notices, trunkFrame_notice]
    rfl
  · refine ⟨Config.unsolicitedTag s.freeIndex, ?_⟩
    rw [State.transmitNext_record (s := { s with trunk := s.trunk.sent }) filled notices
      (Journal.offer_send position held), trunkFrame_record]
    rfl
  · refine ⟨Config.unsolicitedTag s.freeIndex, ?_⟩
    rw [State.transmitNext_record (s := { s with trunk := s.trunk.sent }) filled notices
      (Journal.offer_replay sent cursor held), trunkFrame_record]
    rfl
  · rw [State.transmitNext_idle (s := { s with trunk := s.trunk.sent }) filled notices (Journal.offer_none sent replayed)]
end

section
set_option Elab.async false
/-! What a raise, a NOTICE_MASK and a NOTICE_ACK make of the notice conditions and of the pending notices (R189, R194 to R196). -/
namespace Sys2Proof.Machine

/-! ### A NOTICE placed in the list (R189) -/

section
variable {l before after : List Raise} {m n x : Raise}

theorem placeIn_new (fresh : ∀ n ∈ l, n.condition ≠ m.condition) : placeIn l m = l ++ [m] := by
  induction l with
  | nil => rfl
  | cons y rest ih =>
    obtain ⟨other, fresh⟩ := List.forall_mem_cons.1 fresh
    rw [placeIn, if_neg other, ih fresh]
    rfl

theorem placeIn_replaces (same : n.condition = m.condition) (first : ∀ x ∈ before, x.condition ≠ m.condition) :
    placeIn (before ++ n :: after) m = before ++ m :: after := by
  induction before with
  | nil => exact if_pos same
  | cons y rest ih =>
    obtain ⟨other, first⟩ := List.forall_mem_cons.1 first
    rw [List.cons_append, placeIn, if_neg other, ih first]
    rfl

/-- A NOTICE placed stands in the list, beside those there of other conditions, and with no other new one. -/
theorem mem_placeIn_self (l : List Raise) (m : Raise) : m ∈ placeIn l m := by
  induction l with
  | nil => exact List.mem_singleton_self m
  | cons y rest ih =>
    rw [placeIn]
    split
    · exact List.mem_cons_self
    · exact List.mem_cons_of_mem y ih

theorem mem_placeIn_other (held : x ∈ l) (other : x.condition ≠ m.condition) : x ∈ placeIn l m := by
  induction l with
  | nil => cases held
  | cons y rest ih =>
    rw [placeIn]
    split
    · next same => exact List.mem_cons_of_mem m (List.mem_of_ne_of_mem (fun is => other (is ▸ same)) held)
    · exact (List.mem_cons.1 held).elim (fun is => is ▸ List.mem_cons_self) fun behind => List.mem_cons_of_mem y (ih behind)

theorem of_mem_placeIn (placed : x ∈ placeIn l m) : x ∈ l ∨ x = m := by
  induction l with
  | nil => exact .inr (List.mem_singleton.1 placed)
  | cons y rest ih =>
    rw [placeIn] at placed
    split at placed
    · exact (List.mem_cons.1 placed).symm.imp_left (List.mem_cons_of_mem y)
    · rcases List.mem_cons.1 placed with rfl | behind
      · exact .inl List.mem_cons_self
      · exact (ih behind).imp_left (List.mem_cons_of_mem y)

theorem placeIn_conditions_prefix (l : List Raise) (m : Raise) : l.map (·.condition) <+: (placeIn l m).map (·.condition) := by
  rw [placeIn_conditions]
  split
  · exact List.prefix_rfl
  · exact List.prefix_append ..

end

/-! ### Several NOTICEs placed, each of a condition of its own (R195) -/

section
variable {l placed : List Raise} {x : Raise}

/-- The list once these NOTICEs have been placed in their order. -/
def placeAll (l placed : List Raise) : List Raise := placed.foldl placeIn l

theorem of_mem_placeAll (stands : x ∈ placeAll l placed) : x ∈ l ∨ x ∈ placed := by
  induction placed generalizing l with
  | nil => exact .inl stands
  | cons m rest ih =>
    rcases ih (l := placeIn l m) stands with before | later
    · exact (of_mem_placeIn before).imp_right fun first => List.mem_cons.2 (.inl first)
    · exact .inr (List.mem_cons_of_mem m later)

theorem mem_placeAll_other (held : x ∈ l) (others : ∀ m ∈ placed, x.condition ≠ m.condition) : x ∈ placeAll l placed := by
  induction placed generalizing l with
  | nil => exact held
  | cons m rest ih =>
    obtain ⟨other, others⟩ := List.forall_mem_cons.1 others
    exact ih (mem_placeIn_other held other) others

theorem mem_placeAll (distinct : OncePerCondition placed) (given : x ∈ placed) : x ∈ placeAll l placed := by
  induction placed generalizing l with
  | nil => cases given
  | cons m rest ih =>
    obtain ⟨apart, distinct⟩ := List.pairwise_cons.1 distinct
    rcases List.mem_cons.1 given with rfl | later
    · exact mem_placeAll_other (l := placeIn l x) (mem_placeIn_self l x) apart
    · exact ih distinct later

theorem placeAll_conditions_prefix (l placed : List Raise) : l.map (·.condition) <+: (placeAll l placed).map (·.condition) := by
  induction placed generalizing l with
  | nil => exact List.prefix_rfl
  | cons m rest ih => exact (placeIn_conditions_prefix l m).trans (ih _)

end

/-! ### What is written at the notice conditions alone -/

/-- The two states of the trunk port agree in all but the conditions and the pending notices. -/
def TrunkPort.NoticesOnly (t u : TrunkPort) : Prop := ∃ conditions notices, u = { t with conditions := conditions, pendingNotices := notices }

theorem TrunkPort.NoticesOnly.eq {t u : TrunkPort} (h : t.NoticesOnly u) :
    u = { t with conditions := u.conditions, pendingNotices := u.pendingNotices } := by
  obtain ⟨_, _, rfl⟩ := h
  rfl

theorem TrunkPort.NoticesOnly.raises {t u : TrunkPort} (h : t.NoticesOnly u) : u.raises = t.raises := by
  obtain ⟨_, _, rfl⟩ := h
  rfl

/-- So too where a raise has left the queue of the trunk port before. -/
theorem TrunkPort.NoticesOnly.relieved {t v u : TrunkPort} (relieved : v = { t with raises := v.raises }) (h : v.NoticesOnly u) :
    u = { t with conditions := u.conditions, pendingNotices := u.pendingNotices, raises := u.raises } := by
  obtain ⟨_, _, rfl⟩ := h
  rw [relieved]

theorem TrunkPort.NoticesOnly.trans {t u v : TrunkPort} (h : t.NoticesOnly u) (k : u.NoticesOnly v) : t.NoticesOnly v := by
  obtain ⟨_, _, rfl⟩ := h
  obtain ⟨_, _, rfl⟩ := k
  exact ⟨_, _, rfl⟩

/-! ### A raise (R194) -/

section
variable {t : TrunkPort} {r : Raise}

theorem TrunkPort.takeRaise_condition (t : TrunkPort) (r : Raise) (c : Condition) : (t.takeRaise r).condition c =
    if c = r.condition then { latched := true, masked := (t.condition r.condition).masked, detail := r.detail } else t.condition c := by
  simp only [TrunkPort.takeRaise]
  split <;> exact TrunkPort.setCondition_condition ..

theorem TrunkPort.takeRaise_still (still : (t.condition r.condition).latched = true ∨ (t.condition r.condition).masked = true) :
    (t.takeRaise r).pendingNotices = t.pendingNotices := by
  rw [TrunkPort.takeRaise, if_neg (by rcases still with latched | masked <;> simp [*])]
  rfl

theorem TrunkPort.takeRaise_placed (clear : (t.condition r.condition).latched = false) (allowed : (t.condition r.condition).masked = false) :
    (t.takeRaise r).pendingNotices = placeIn t.pendingNotices r := by
  rw [TrunkPort.takeRaise, if_pos (by simp [clear, allowed])]
  rfl

theorem TrunkPort.takeRaise_noticesOnly (t : TrunkPort) (r : Raise) : t.NoticesOnly (t.takeRaise r) := by
  simp only [TrunkPort.takeRaise]
  split <;> exact ⟨_, _, rfl⟩

theorem State.setRaises_trunk (s : State) (source : RaiseSource) (rest : List Raise) :
    (s.setRaises source rest).trunk = { s.trunk with raises := (s.setRaises source rest).trunk.raises } := by cases source <;> rfl

theorem State.setRaises_condition (s : State) (source : RaiseSource) (rest : List Raise) (c : Condition) :
    (s.setRaises source rest).trunk.condition c = s.trunk.condition c := by cases source <;> rfl

theorem State.setRaises_pendingNotices (s : State) (source : RaiseSource) (rest : List Raise) :
    (s.setRaises source rest).trunk.pendingNotices = s.trunk.pendingNotices := by cases source <;> rfl

theorem State.raisesOf_setRaises_same (s : State) (source : RaiseSource) (rest : List Raise) :
    (s.setRaises source rest).raisesOf source = rest := by
  cases source
  case lane l => simp [State.setRaises, State.raisesOf]
  all_goals rfl

theorem State.raisesOf_setRaises_other {source other : RaiseSource} (s : State) (differs : other ≠ source) (rest : List Raise) :
    (s.setRaises source rest).raisesOf other = s.raisesOf other := by
  cases source <;> cases other
  case lane.lane l m => exact congrArg Lane.raises (State.setLane_lane_other s _ fun same => differs (same ▸ rfl))
  case journal.journal | passTable.passTable | streamUnit.streamUnit | trunkPort.trunkPort => exact absurd rfl differs
  all_goals rfl

theorem State.latchRaise_raisesOf (s : State) (r : Raise) (source : RaiseSource) : (s.latchRaise r).raisesOf source = s.raisesOf source := by
  cases source
  case trunkPort => exact (s.trunk.takeRaise_noticesOnly r).raises
  all_goals rfl

theorem exec_noticeRaise {s : State} {source : RaiseSource} {rest : List Raise} (handed : s.raisesOf source = r :: rest) :
    exec (.noticeRaise source) s = .next ((s.setRaises source rest).latchRaise r) := by
  simp only [exec, execNoticeRaise, handed]

end

/-! ### The masks (R195) -/

section
variable {t : TrunkPort} {cs : List Condition} {f : Condition → Bool}

/-- Whether these masks allow a condition that is latched and was masked. -/
def TrunkPort.unmasks (t : TrunkPort) (f : Condition → Bool) (c : Condition) : Bool :=
  (t.condition c).masked && !f c && (t.condition c).latched

/-- The NOTICE of a condition with its stored detail. -/
def TrunkPort.storedNotice (t : TrunkPort) (c : Condition) : Raise := { condition := c, detail := (t.condition c).detail }

/-- The trunk port once these conditions have taken their masks, in this order. -/
def TrunkPort.maskAll (t : TrunkPort) (cs : List Condition) (f : Condition → Bool) : TrunkPort :=
  cs.foldl (fun t c => t.setMask c (f c)) t

theorem TrunkPort.setMask_condition (t : TrunkPort) (c d : Condition) (masked : Bool) : (t.setMask c masked).condition d =
    if d = c then { t.condition c with masked := masked } else t.condition d := by
  simp only [TrunkPort.setMask]
  split <;> exact TrunkPort.setCondition_condition ..

theorem TrunkPort.setMask_pendingNotices (t : TrunkPort) (c : Condition) : (t.setMask c (f c)).pendingNotices =
    if t.unmasks f c = true then placeIn t.pendingNotices (t.storedNotice c) else t.pendingNotices := by
  unfold TrunkPort.setMask TrunkPort.unmasks
  dsimp only
  split <;> rfl

theorem TrunkPort.maskAll_condition (distinct : cs.Nodup) (d : Condition) : (t.maskAll cs f).condition d =
    if d ∈ cs then { t.condition d with masked := f d } else t.condition d := by
  induction cs generalizing t with
  | nil => rfl
  | cons c rest ih =>
    obtain ⟨apart, distinct⟩ := List.nodup_cons.1 distinct
    refine (ih (t := t.setMask c (f c)) distinct).trans ?_
    rw [TrunkPort.setMask_condition]
    by_cases here : d = c
    · subst here
      simp [apart]
    · simp [here]

/-- Each latched condition that the masks allow again gets its NOTICE, in the order in which they are set. -/
theorem TrunkPort.maskAll_pendingNotices (distinct : cs.Nodup) : (t.maskAll cs f).pendingNotices =
    placeAll t.pendingNotices ((cs.filter (t.unmasks f)).map t.storedNotice) := by
  induction cs generalizing t with
  | nil => rfl
  | cons c rest ih =>
    obtain ⟨apart, distinct⟩ := List.nodup_cons.1 distinct
    have others (d : Condition) (later : d ∈ rest) : (t.setMask c (f c)).condition d = t.condition d := by
      rw [TrunkPort.setMask_condition, if_neg (ne_of_mem_of_not_mem later apart)]
    have kept : rest.filter ((t.setMask c (f c)).unmasks f) = rest.filter (t.unmasks f) :=
      List.filter_congr fun d later => by simp only [TrunkPort.unmasks, others d later]
    have stored : (rest.filter (t.unmasks f)).map (t.setMask c (f c)).storedNotice = (rest.filter (t.unmasks f)).map t.storedNotice :=
      List.map_congr_left fun d later => by simp only [TrunkPort.storedNotice, others d (List.mem_of_mem_filter later)]
    refine (ih (t := t.setMask c (f c)) distinct).trans ?_
    rw [kept, stored, TrunkPort.setMask_pendingNotices]
    split
    · next unmasked => rw [List.filter_cons_of_pos unmasked]; rfl
    · next other => rw [List.filter_cons_of_neg other]

theorem TrunkPort.setMask_noticesOnly (t : TrunkPort) (c : Condition) (masked : Bool) : t.NoticesOnly (t.setMask c masked) := by
  simp only [TrunkPort.setMask]
  split <;> exact ⟨_, _, rfl⟩

theorem TrunkPort.maskAll_noticesOnly (t : TrunkPort) (cs : List Condition) (f : Condition → Bool) : t.NoticesOnly (t.maskAll cs f) := by
  induction cs generalizing t with
  | nil => exact ⟨_, _, rfl⟩
  | cons c rest ih => exact (t.setMask_noticesOnly c (f c)).trans (ih _)

theorem mem_allConditions (c : Condition) : c ∈ allConditions := by cases c <;> decide

theorem allConditions_nodup : allConditions.Nodup := by decide

/-- The flags that a NOTICE_MASK carries, one for each condition. -/
def maskFlags (flags : Nat) (c : Condition) : Bool := flags.testBit c.index.val

theorem TrunkPort.setMasks_eq (t : TrunkPort) (flags : Nat) : t.setMasks flags = t.maskAll allConditions (maskFlags flags) := rfl

/-- The NOTICEs that these masks place. -/
def TrunkPort.unmasked (t : TrunkPort) (f : Condition → Bool) : List Raise := (allConditions.filter (t.unmasks f)).map t.storedNotice

theorem TrunkPort.mem_unmasked {n : Raise} : n ∈ t.unmasked f ↔
    (t.condition n.condition).latched = true ∧ (t.condition n.condition).masked = true ∧ f n.condition = false
      ∧ n.detail = (t.condition n.condition).detail := by
  simp only [TrunkPort.unmasked, List.mem_map, List.mem_filter, mem_allConditions, true_and, TrunkPort.unmasks, Bool.and_eq_true,
    Bool.not_eq_true']
  constructor
  · rintro ⟨c, ⟨⟨masked, allowed⟩, latched⟩, rfl⟩
    exact ⟨latched, masked, allowed, rfl⟩
  · rintro ⟨latched, masked, allowed, detail⟩
    exact ⟨n.condition, ⟨⟨masked, allowed⟩, latched⟩, by rw [TrunkPort.storedNotice, ← detail]⟩

theorem TrunkPort.unmasked_once (t : TrunkPort) (f : Condition → Bool) : OncePerCondition (t.unmasked f) := by
  have same : (t.unmasked f).map (·.condition) = allConditions.filter (t.unmasks f) := by
    simp [TrunkPort.unmasked, TrunkPort.storedNotice, Function.comp_def]
  rw [oncePerCondition_iff, same]
  exact allConditions_nodup.filter _

theorem TrunkPort.setMasks_condition (t : TrunkPort) (flags : Nat) (c : Condition) : (t.setMasks flags).condition c =
    { t.condition c with masked := maskFlags flags c } := by
  rw [TrunkPort.setMasks_eq, TrunkPort.maskAll_condition allConditions_nodup, if_pos (mem_allConditions c)]

theorem TrunkPort.setMasks_pendingNotices (t : TrunkPort) (flags : Nat) :
    (t.setMasks flags).pendingNotices = placeAll t.pendingNotices (t.unmasked (maskFlags flags)) := by
  rw [TrunkPort.setMasks_eq, TrunkPort.maskAll_pendingNotices allConditions_nodup, TrunkPort.unmasked]

end

section
variable {s : State} {r : Routed}

theorem exec_noticeMask_illegal (routes : s.Routes .trunkPort .noticeMask r) (illegal : 1024 ≤ field r.body 0 2) :
    exec .noticeMask s = .next ((s.dropNextFor .trunkPort).answer r.place .badField []) := by
  simp only [exec, execNoticeMask, routes.take, if_pos illegal]

/-- Whether a NOTICE_MASK leaves every mask as it is. -/
theorem allMasks_same (t : TrunkPort) (flags : Nat) :
    (allConditions.all fun c => (t.condition c).masked == flags.testBit c.index.val) = true
      ↔ ∀ c, (t.condition c).masked = flags.testBit c.index.val := by
  simp [mem_allConditions]

theorem exec_noticeMask_same (routes : s.Routes .trunkPort .noticeMask r) (legal : field r.body 0 2 < 1024)
    (same : ∀ c, (s.trunk.condition c).masked = (field r.body 0 2).testBit c.index.val) :
    exec .noticeMask s = .next ((s.dropNextFor .trunkPort).answer r.place .okNoChange []) := by
  simp only [exec, execNoticeMask, routes.take, if_neg (Nat.not_le.2 legal), State.dropNextFor_trunk]
  exact if_pos ((allMasks_same ..).2 same)

theorem exec_noticeMask_changes (routes : s.Routes .trunkPort .noticeMask r) (legal : field r.body 0 2 < 1024)
    (changes : ∃ c, (s.trunk.condition c).masked ≠ (field r.body 0 2).testBit c.index.val) :
    exec .noticeMask s = .next
      ({ s.dropNextFor .trunkPort with trunk := s.trunk.setMasks (field r.body 0 2) }.answer r.place .ok []) := by
  have changed : ¬ ∀ c, (s.trunk.condition c).masked = (field r.body 0 2).testBit c.index.val := by simpa using changes
  simp only [exec, execNoticeMask, routes.take, if_neg (Nat.not_le.2 legal), State.dropNextFor_trunk]
  exact if_neg fun same => changed ((allMasks_same ..).1 same)

/-! ### The acknowledgement (R196) -/

theorem conditionOf_index (c : Condition) : conditionOf c.index.val = some c := by cases c <;> rfl

theorem conditionOf_none {n : Nat} (beyond : 9 < n) : conditionOf n = none := by
  obtain ⟨k, rfl⟩ := Nat.exists_eq_add_of_lt beyond
  rw [show 9 + k + 1 = k + 10 by omega]
  rfl

theorem State.causePresent_laneFault (s : State) : s.causePresent .laneFault = true ↔
    ∃ l : LaneNo, (s.lane l).actuationFail = true ∨ (s.lane l).stuckOpen = true := by
  simp [State.causePresent, mem_laneNumbers]

theorem State.causePresent_journalHigh (s : State) : s.causePresent .journalHigh = true ↔ s.journal.lowMark < s.journal.held := by
  simp [State.causePresent]

/-- No other condition has a cause that can be still present. -/
theorem State.causePresent_other {c : Condition} (s : State) (fault : c ≠ .laneFault) (high : c ≠ .journalHigh) : s.causePresent c = false := by
  cases c
  case laneFault => exact absurd rfl fault
  case journalHigh => exact absurd rfl high
  all_goals rfl

theorem State.causePresent_dropNextFor (s : State) (o : Owner) (c : Condition) : (s.dropNextFor o).causePresent c = s.causePresent c := by
  cases c <;> rfl

theorem exec_noticeAck_illegal (routes : s.Routes .trunkPort .noticeAck r) (illegal : 9 < field r.body 0 1) :
    exec .noticeAck s = .next ((s.dropNextFor .trunkPort).answer r.place .badField []) := by
  simp only [exec, execNoticeAck, routes.take, conditionOf_none illegal]

/-- What an acknowledgement makes of a condition, by its latch and its cause. -/
theorem exec_noticeAck {c : Condition} (routes : s.Routes .trunkPort .noticeAck r) (names : field r.body 0 1 = c.index.val) :
    exec .noticeAck s = .next (
      if (s.trunk.condition c).latched = false then (s.dropNextFor .trunkPort).answer r.place .okNoChange []
      else if s.causePresent c = true then (s.dropNextFor .trunkPort).answer r.place .stillPresent []
      else { s.dropNextFor .trunkPort with
        trunk := s.trunk.setCondition c { s.trunk.condition c with latched := false } }.answer r.place .ok []) := by
  simp only [exec, execNoticeAck, routes.take, names, conditionOf_index, State.dropNextFor_trunk, State.causePresent_dropNextFor,
    Bool.not_eq_true']
  split
  · rfl
  · split <;> rfl

end
end Sys2Proof.Machine

open Sys2Proof Sys2Proof.Machine

/-- Settles O28: the block relieved of the raise, and the raise taken by whether its condition was clear and allowed. -/
theorem raisesTaken : Obligations.RaisesTaken := by
  intro s source r rest handed
  have noticesOnly := ((s.setRaises source rest).trunk.takeRaise_noticesOnly r).eq
  have conditions (c : Condition) := (s.setRaises source rest).trunk.takeRaise_condition r c
  simp only [State.setRaises_condition] at conditions
  refine ⟨_, s.setRaises source rest, exec_noticeRaise handed, by cases source <;> rfl, ?_, ?_, fun other differs => ?_, ?_,
    fun c other => ?_, fun still => ?_, fun clear allowed => ⟨fun fresh => ?_, fun before n after list same first => ?_⟩, ?_⟩
  · exact congrArg (fun u => { s.setRaises source rest with trunk := u }) noticesOnly
  · rw [State.latchRaise_raisesOf, State.raisesOf_setRaises_same]
  · rw [State.latchRaise_raisesOf, State.raisesOf_setRaises_other s differs]
  · exact (conditions r.condition).trans (if_pos rfl)
  · exact (conditions c).trans (if_neg other)
  · rw [State.latchRaise, TrunkPort.takeRaise_still (by simpa only [State.setRaises_condition] using still), State.setRaises_pendingNotices]
  · rw [State.latchRaise, TrunkPort.takeRaise_placed (by simpa only [State.setRaises_condition] using clear)
      (by simpa only [State.setRaises_condition] using allowed), State.setRaises_pendingNotices, placeIn_new fresh]
  · rw [State.latchRaise, TrunkPort.takeRaise_placed (by simpa only [State.setRaises_condition] using clear)
      (by simpa only [State.setRaises_condition] using allowed), State.setRaises_pendingNotices, list,
      placeIn_replaces same fun x earlier => same ▸ first x earlier]
  · exact ((s.setRaises source rest).trunk.takeRaise_noticesOnly r).relieved (s.setRaises_trunk source rest)

/-- Settles O29: the flags by whether they are legal and change a mask, and the NOTICEs that they place. -/
theorem masksTaken : Obligations.MasksTaken := by
  intro s r routes
  refine ⟨exec_noticeMask_illegal routes, fun legal => ⟨exec_noticeMask_same routes legal, fun changes =>
    ⟨_, exec_noticeMask_changes routes legal changes, fun c => TrunkPort.setMasks_condition .., fun c latched masked allowed => ?_, fun n stands => ?_,
      fun n stands => ?_, ?_, (TrunkPort.maskAll_noticesOnly ..).eq⟩⟩⟩
  · rw [TrunkPort.setMasks_pendingNotices]
    exact mem_placeAll (TrunkPort.unmasked_once ..) (TrunkPort.mem_unmasked.2 ⟨latched, masked, allowed, rfl⟩)
  · rw [TrunkPort.setMasks_pendingNotices]
    exact List.mem_map.1 ((placeAll_conditions_prefix ..).subset (List.mem_map_of_mem stands))
  · rw [TrunkPort.setMasks_pendingNotices] at stands
    exact (of_mem_placeAll stands).imp_right TrunkPort.mem_unmasked.1
  · rw [TrunkPort.setMasks_pendingNotices]
    obtain ⟨joined, list⟩ := placeAll_conditions_prefix s.trunk.pendingNotices (s.trunk.unmasked (maskFlags (field r.body 0 2)))
    exact ⟨joined, list.symm⟩

/-- Settles O30: the condition named by its latch, and a latched one by whether its cause is still present. -/
theorem noticesAcknowledged : Obligations.NoticesAcknowledged := by
  intro s r routes
  refine ⟨exec_noticeAck_illegal routes, fun c names => ⟨fun clear => ?_, fun latched => ⟨fun cause => ?_, fun lanes journal => ?_⟩⟩⟩
  · rw [exec_noticeAck routes names, if_pos clear]
  · have present : s.causePresent c = true := by
      rcases cause with ⟨rfl, fault⟩ | ⟨rfl, high⟩
      · exact s.causePresent_laneFault.2 fault
      · exact s.causePresent_journalHigh.2 high
    rw [exec_noticeAck routes names, if_neg (by simp [latched]), if_pos present]
  · have absent : s.causePresent c ≠ true := by
      by_cases fault : c = .laneFault
      · subst fault
        rw [Ne, s.causePresent_laneFault]
        rintro ⟨l, held⟩
        simp [lanes rfl l] at held
      · by_cases high : c = .journalHigh
        · subst high
          rw [Ne, s.causePresent_journalHigh]
          exact Nat.not_lt.2 (journal rfl)
        · simp [s.causePresent_other fault high]
    refine ⟨s.trunk.setCondition c { s.trunk.condition c with latched := false }, ?_, ?_, fun d other => ?_, rfl⟩
    · rw [exec_noticeAck routes names, if_neg (by simp [latched]), if_neg absent]
    · rw [TrunkPort.setCondition_condition, if_pos rfl]
    · rw [TrunkPort.setCondition_condition, if_neg other]
end

section
set_option Elab.async false
/-! How a CONFIG is handed to its owners, and what each of them makes of its settings (R36, R106, R138, R143, R193). -/
namespace Sys2Proof.Machine

/-! ### Values held in their ranges -/

theorem clamp_zero (high n : Nat) : clamp 0 high n = min high n := by
  unfold clamp
  split
  · omega
  · split <;> omega

theorem min_ne_iff {high n : Nat} : min high n ≠ n ↔ high < n := by omega

/-- Whether either of two values differs, as a test and as a statement. -/
theorem differs_eq_decide (a b c d : Nat) : (a != b || c != d) = decide (a ≠ b ∨ c ≠ d) := by
  rw [Bool.eq_iff_iff]
  simp

theorem ne_eq_decide (a b : Nat) : (a != b) = decide (a ≠ b) := by
  rw [Bool.eq_iff_iff]
  simp

/-! ### The owners of the settings (R193) -/

section
variable {s : State} {r : Routed} {l : LaneNo}

/-- Each place that awaited the trunk port now awaits the owners of the settings. -/
def ReservedPlace.awaitingOwners (n : Nat) (x : ReservedPlace) : ReservedPlace := if x.number = n then { x with awaiting := 15 } else x

theorem ReservedPlace.awaitingOwners_number (n : Nat) (x : ReservedPlace) : (x.awaitingOwners n).number = x.number := by
  unfold ReservedPlace.awaitingOwners
  split <;> rfl

theorem exec_config_trunkPort {n : Nat} (routes : s.Routes .trunkPort .config r) (place : r.place = some n) :
    exec (.config .trunkPort) s = .next
      { s with
        trunk := { s.trunk with reserved := s.trunk.reserved.map (·.awaitingOwners n) }
        routed := (s.dropNextFor .trunkPort).routed ++ settingOwners.map fun o => { r with owner := o } } := by
  have awaits : (fun p : ReservedPlace => if some n = some p.number then { p with awaiting := settingOwners.length } else p)
      = (·.awaitingOwners n) := funext fun p => by simp [ReservedPlace.awaitingOwners, eq_comm, settingOwners, laneNumbers]
  simp only [exec, execConfig, routes.take, State.handSettings, TrunkPort.awaitOwners, place, awaits, State.dropNextFor_trunk]
  rfl

theorem exec_config_lane (routes : s.Routes (.lane l) .config r) : exec (.config (.lane l)) s = .next
    (((s.dropNextFor (.lane l)).setLane l
        { s.lane l with passageWindow := clamp 2 30 (field r.body 0 1), holdTimeout := clamp 5 60 (field r.body 1 1) }).jointAnswer r.place
      (decide ((s.lane l).passageWindow ≠ clamp 2 30 (field r.body 0 1) ∨ (s.lane l).holdTimeout ≠ clamp 5 60 (field r.body 1 1)))
      (decide (clamp 2 30 (field r.body 0 1) ≠ field r.body 0 1 ∨ clamp 5 60 (field r.body 1 1) ≠ field r.body 1 1))
      fun v => { v with passageWindow := clamp 2 30 (field r.body 0 1), holdTimeout := clamp 5 60 (field r.body 1 1) }) := by
  simp only [exec, execConfig, routes.take, State.laneSettings, settingsForm, differs_eq_decide]
  rfl

theorem exec_config_refundUnit (routes : s.Routes .refundUnit .config r) : exec (.config .refundUnit) s = .next
    ({ s.dropNextFor .refundUnit with minimumPayout := min 9999 (field r.body 2 2) }.jointAnswer r.place
      (decide (s.minimumPayout ≠ min 9999 (field r.body 2 2))) (decide (9999 < field r.body 2 2))
      fun v => { v with minimumPayout := min 9999 (field r.body 2 2) }) := by
  simp only [exec, execConfig, routes.take, State.payoutSetting, settingsForm, clamp_zero, ne_eq_decide, min_ne_iff]
  rfl

theorem exec_config_calendar (routes : s.Routes .calendar .config r) : exec (.config .calendar) s = .next
    ({ s.dropNextFor .calendar with
        calendar := { s.calendar with closureThreshold := min 1440 (field r.body 4 2) } }.jointAnswer r.place
      (decide (s.calendar.closureThreshold ≠ min 1440 (field r.body 4 2))) (decide (1440 < field r.body 4 2))
      fun v => { v with closureThreshold := min 1440 (field r.body 4 2) }) := by
  simp only [exec, execConfig, routes.take, State.thresholdSetting, settingsForm, clamp_zero, ne_eq_decide, min_ne_iff]
  rfl

/-- The marks as the journal stores them (R138). -/
theorem Journal.setMarks_marks (j : Journal) (low high : Nat) :
    (j.setMarks low high).lowMark = clamp 1 (clamp 2 4080 high - 1) low ∧ (j.setMarks low high).highMark = clamp 2 4080 high := by
  have agrees := Journal.considerHigh_agrees
    { j with highMark := clamp 2 4080 high, lowMark := clamp 1 (clamp 2 4080 high - 1) low }
  exact ⟨agrees.low, agrees.high⟩

theorem exec_config_journal {low high : Nat} (routes : s.Routes .journal .config r) (top : high = clamp 2 4080 (field r.body 8 2))
    (bottom : low = clamp 1 (high - 1) (field r.body 6 2)) : exec (.config .journal) s = .next
      ({ s.dropNextFor .journal with
          journal := { s.journal with lowMark := low, highMark := high }.considerHigh }.jointAnswer r.place
        (decide (s.journal.lowMark ≠ low ∨ s.journal.highMark ≠ high))
        (decide (low ≠ field r.body 6 2 ∨ high ≠ field r.body 8 2))
        fun v => { v with lowMark := low, highMark := high }) := by
  subst top
  obtain ⟨lowMark, highMark⟩ := s.journal.setMarks_marks (field r.body 6 2) (field r.body 8 2)
  rw [← bottom] at lowMark
  simp only [exec, execConfig, routes.take, State.markSettings, settingsForm, State.dropNextFor_journal, lowMark, highMark, differs_eq_decide]
  rw [bottom]
  rfl

end
end Sys2Proof.Machine

open Sys2Proof Sys2Proof.Machine

/-- Settles O31: the request handed on, and each owner's own settings by its clamped values. -/
theorem configTaken : Obligations.ConfigTaken := by
  refine ⟨fun s r n p routes place held => ?_, fun s l r routes => ⟨_, _, rfl, rfl, exec_config_lane routes⟩,
    fun s r => exec_config_refundUnit, fun s r => exec_config_calendar, fun s r routes => ?_⟩
  · refine ⟨_, p.awaitingOwners n, exec_config_trunkPort routes place, ?_, if_pos (TrunkPort.place_number held), fun k other => ?_, rfl, ?_⟩
    · exact (TrunkPort.place_map (ReservedPlace.awaitingOwners_number n) n).trans (by rw [held]; rfl)
    · refine (TrunkPort.place_map (ReservedPlace.awaitingOwners_number n) k).trans ?_
      cases found : s.trunk.place k with
      | none => rfl
      | some x => exact congrArg some (if_neg (TrunkPort.place_number found ▸ other))
    · simp only [settingOwners, List.map_append, List.map_map, List.map_cons, List.map_nil, List.append_assoc]
      rfl
  · obtain ⟨least, below⟩ := clamped_marks (field r.body 6 2) (field r.body 8 2)
    exact ⟨_, _, rfl, rfl, least, below.1, below.2, exec_config_journal routes rfl rfl⟩
end

section
/-! ### A step whose queue is not empty (log entries 37 and 38)

The counterpart of `step_of_empty_queue`: the front command runs on the state with the rest of the queue. -/
namespace Sys2Proof.Machine

theorem step_of_pending_cons {s : State} {c : Instr} {rest : List Instr} (front : s.pending = c :: rest) :
    step s = exec c { s with pending := rest } := by
  rw [step, front]

end Sys2Proof.Machine

open Sys2Proof.Machine

/-- Settles O1: the command is the front of the queue, so the step takes it and leaves the rest. -/
theorem stepRunsFront : Obligations.StepRunsFront := fun _ _ _ => step_of_pending_cons
end
